-- ==== Sys2Proof/Word.lean ====
section
/-!
DEFINITION. The plain data the spec counts and compares: bytes, levels, absolute times and the answers of the ports
(spec/00_scope.md R11, R13, R14, R15).
-/

namespace Sys2Proof

/-- A byte: 8 bits, unsigned (R11). -/
abbrev Byte := BitVec 8

/-- A logical level of the output line: `high` is 1 and `low` is 0 (R15). -/
inductive Level where
  | low
  | high
  deriving DecidableEq, Repr, Inhabited

/-- An absolute time `(sec, nsec)` with `0 ≤ nsec < 10^9` (R14). `sec` has the open width SEC_BITS and is taken
unbounded (R10, D11; log 7). -/
structure AbsTime where
  sec  : Nat
  nsec : Fin 1000000000
  deriving DecidableEq, Repr, Inhabited

/-- `ns(t) = sec * 10^9 + nsec`, the value of a time in nanoseconds (R14). -/
def AbsTime.ns (t : AbsTime) : Nat := t.sec * 1000000000 + t.nsec.val

/-- The answer of a `SetLevel` request (R13). -/
inductive PortAnswer where
  | ok
  | err
  deriving DecidableEq, Repr, Inhabited

end Sys2Proof
end

