-- ==== Sys2Proof/Config.lean ====
section
/-!
DEFINITION. What is fixed for the block: the protocol constants as one record (spec/00_scope.md R8, D20), the
structural parameters (R9), and the values the spec leaves open, as constants without a body (R10, R36;
spec/93_implementation_defined.md I2 to I8).
-/

namespace Sys2Proof

/-- The durations of the protocol in microseconds (R8), one record so that a corrected literal changes one field. -/
structure Protocol where
  hdrMark   : Nat
  hdrSpace  : Nat
  bitMark   : Nat
  oneSpace  : Nat
  zeroSpace : Nat
  rptMark   : Nat
  rptSpace  : Nat
  deriving DecidableEq, Repr

/-- The kind of the external clock (R10, R175): the spec leaves it open. -/
inductive ClockKind where
  | monotonic
  | realtime
  deriving DecidableEq, Repr, Inhabited

namespace Config

/-- The source's values (R8). UNVERIFIED: the source's literals are unaudited (N3; log 20). -/
def protocol : Protocol :=
  { hdrMark := 3400, hdrSpace := 1750, bitMark := 340, oneSpace := 1300, zeroSpace := 420,
    rptMark := 440, rptSpace := 17100 }

/-- `N_BYTES` (R9). -/
def nBytes : Nat := 18

/-- `BYTE_BITS` (R9). -/
def byteBits : Nat := 8

/-- `N_FRAMES` (R9). -/
def nFrames : Nat := 2

/-- `N_GAPS` (R9). -/
def nGaps : Nat := 1

/-- `CHK_BYTES` (R9). -/
def chkBytes : Nat := 17

/-- `MAGIC`, the five prefix bytes in index order (R9, R71). -/
def magic : List Byte := [0x23#8, 0xCB#8, 0x26#8, 0x01#8, 0x00#8]

/-- `CLOCK_KIND`, open (R10, D12, I8; log 8). -/
opaque clockKind : ClockKind

/-- The answer the line gives to a `SetLevel` for which the inputs in State list none: a free value, the n-th draw
(I7; log 2). -/
opaque setLevelAnswer : Nat → PortAnswer

/-- The answer the clock gives to a `Now` for which the inputs in State list none, `none` being `err`: a free value,
the n-th draw (I5, I7; log 2). -/
opaque nowAnswer : Nat → Option AbsTime

/-- The actual level of the line while `LINE` is UNKNOWN: a free value, the n-th draw (I2, I3, I4; log 6). -/
opaque lineLevelDraw : Nat → Level

/-- `LINE_INIT`, the actual level before the first pulse (R10, R30, I2): the draw of the reset state. -/
def lineInit : Level := lineLevelDraw 0

end Config

end Sys2Proof
end

