-- ==== Sys2Proof/Syntax.lean ====
section
/-!
DEFINITION. The instructions: the host commands (spec/30_encoding.md R76, R79) and the pulse kinds the sequencer
issues (R73), one constructor for each row of spec/opcode_table.json.
-/

namespace Sys2Proof

/-- The seven pulse kinds, in the order of their codes (R73). -/
inductive PulseKind where
  | hdrMark
  | hdrSpace
  | bitMark
  | zeroSpace
  | oneSpace
  | rptMark
  | rptSpace
  deriving DecidableEq, Repr

/-- The instructions of the block. The first three are host commands (R76); the rest are the pulse kinds, which the
sequencer issues and no host command names (R73). -/
inductive Instr where
  /-- BUILD: five operand bytes, taken as they are (R77, R100). -/
  | build (power mode temperature modeFlags fanSpeed : Byte)
  /-- TRANSMIT: no operand bytes (R78, R120). -/
  | transmit
  /-- A reserved opcode byte, any value other than 0x01 and 0x02 (R79). -/
  | reserved (opcode : Byte)
  /-- Pulse kind 0 (R140). -/
  | hdrMark
  /-- Pulse kind 1 (R141). -/
  | hdrSpace
  /-- Pulse kind 2 (R142). -/
  | bitMark
  /-- Pulse kind 3 (R143). -/
  | zeroSpace
  /-- Pulse kind 4 (R144). -/
  | oneSpace
  /-- Pulse kind 5 (R145). -/
  | rptMark
  /-- Pulse kind 6 (R146). -/
  | rptSpace
  /-- Code 7: "not a pulse kind and is never produced" (R73). -/
  | unusedPulseKind
  deriving DecidableEq, Repr

/-- The instruction a pulse kind stands for. -/
def PulseKind.instr : PulseKind → Instr
  | .hdrMark   => .hdrMark
  | .hdrSpace  => .hdrSpace
  | .bitMark   => .bitMark
  | .zeroSpace => .zeroSpace
  | .oneSpace  => .oneSpace
  | .rptMark   => .rptMark
  | .rptSpace  => .rptSpace

/-- Which of the two code spaces an instruction belongs to: a host command (R76) or a pulse kind (R73). -/
def Instr.isCommand : Instr → Bool
  | .build _ _ _ _ _ => true
  | .transmit        => true
  | .reserved _      => true
  | .hdrMark         => false
  | .hdrSpace        => false
  | .bitMark         => false
  | .zeroSpace       => false
  | .oneSpace        => false
  | .rptMark         => false
  | .rptSpace        => false
  | .unusedPulseKind => false

end Sys2Proof
end

