-- ==== Sys2Proof/Machine/State.lean ====
section
/-!
DEFINITION. State: every register of spec/10_state.md, the block's inputs as plain data (R36; spec/42_external_interface.md
R170 to R174), the model's own fields, the reasons a step can stop, and the state after reset (R40).
-/

namespace Sys2Proof.Machine

/-- `PHASE`, codes 0 to 8 in this order (R21). Codes 9 to 15 are never written and have no constructor (log 17). -/
inductive Phase where
  | idle
  | hdrMark
  | hdrSpace
  | bitMark
  | bitSpace
  | rptMark
  | rptSpace
  | done
  | failed
  deriving DecidableEq, Repr

/-- `SUB`: whether the pulse's `SetLevel` is still to be issued or its sleep is outstanding (R22). -/
inductive Sub where
  | emit
  | wait
  deriving DecidableEq, Repr

/-- The sequencer position `pos` (R26). `BYTE_IDX` is 0..17 (R24) and `BIT_IDX` is 0..7 (R25) by type (log 17). -/
structure Pos where
  phase   : Phase
  sub     : Sub
  frame   : Fin 2
  byteIdx : Fin 18
  bitIdx  : Fin 8
  deriving DecidableEq, Repr

/-- `LINE`: the level the block last drove, or UNKNOWN (R30). -/
inductive Line where
  | driven (v : Level)
  | unknown
  deriving DecidableEq, Repr

/-- `ERR`: the outcome of the most recent transmission, codes 0 to 3 in this order (R31). -/
inductive TxError where
  | none
  | deviceUnavailable
  | lineActuationFailure
  | clockUnavailable
  deriving DecidableEq, Repr

/-- A payload store: the listed bytes by index, indices strictly rising and below 18, no entry equal to what an
unlisted index reads as, 0x00 (R50; log 5). -/
abbrev Memory := List Host.Cell

/-- An event that may come next (R198). `engine` is the engine's own turn, an EMIT or a WAKE step; `lineReady b` is a
change of the LINE_READY input (R174). -/
inductive Turn where
  | engine
  | command
  | reset
  | lineReady (b : Bool)
  deriving DecidableEq, Repr

/-- The clock's answer to one `SleepUntil(t)`, `ok` or `err`, given `late` nanoseconds after `t`, hence "at or after that
time" (R170, R36, R173; log 3). -/
inductive SleepAnswer where
  | ok (late : Nat)
  | err (late : Nat)
  deriving DecidableEq, Repr

/-- An event of the port trace (R179). -/
inductive PortEvent where
  | cmd (c : Instr)
  | now (answer : Option AbsTime)
  | setLevel (v : Level) (answer : PortAnswer)
  | sleepUntil (t : AbsTime)
  | wake (w : AbsTime) (answer : PortAnswer)
  deriving DecidableEq, Repr

/-- One entry of the trace: the event, and STATUS after it (R179; log 14). -/
structure Observation where
  event  : PortEvent
  status : BitVec 32
  deriving DecidableEq, Repr

/-- The inputs of the block still to come, each list oldest first (R36, R170; logs 1, 2, 3, 15, 16). -/
structure Ports where
  turns        : List Turn
  cmd          : List Byte
  lineReady    : Bool
  lineAnswers  : List PortAnswer
  nowAnswers   : List (Option AbsTime)
  sleepAnswers : List SleepAnswer
  deriving DecidableEq, Repr

/-- The state of the block. `pos` to `hostFault` are the registers of spec/10_state.md; `ports` are its inputs; `draws`
and `lineDraw` index the free values (logs 2, 6); `trace` is the observation, newest first (R179). -/
structure State where
  pos        : Pos
  payload    : Memory
  stage      : Memory
  stageValid : Bool
  t          : AbsTime
  line       : Line
  err        : TxError
  failPulse  : Option (Fin 582)
  hostFault  : BitVec 3
  ports      : Ports
  draws      : Nat
  lineDraw   : Nat
  trace      : List Observation
  deriving DecidableEq, Repr

/-- The reasons the machine stops. -/
inductive Fault where
  /-- Raised by the meaning of pulse code 7 alone: "Code 7 is not a pulse kind and is never produced" (R73). Safe: the
  sequencer never issues it (R122), so no run reaches it (log 10). -/
  | unusedPulseKind
  deriving DecidableEq, Repr

/-- The reasons an instruction has no meaning. -/
inductive Refusal where
  /-- Raised by an arm of exec whose instruction has no meaning yet. Safe: it stops where the hardware goes on. -/
  | notModelled (mnemonic : String)
  deriving DecidableEq, Repr

/-- The position after reset (R40). -/
def Pos.reset : Pos := { phase := .idle, sub := .emit, frame := 0, byteIdx := 0, bitIdx := 0 }

/-- No input is listed: nothing on CMD, LINE_READY 0, no answers. DESIGN CHOICE (logs 1, 2, 3, 15, 16). -/
def Ports.silent : Ports :=
  { turns := [], cmd := [], lineReady := false, lineAnswers := [], nowAnswers := [], sleepAnswers := [] }

/-- The state after reset (R40). `payload`, `stage` and `t` are "unspecified, never read" in the spec: all zero here,
DESIGN CHOICE (log 5). -/
def State.reset : State :=
  { pos := Pos.reset
    payload := []
    stage := []
    stageValid := false
    t := { sec := 0, nsec := 0 }
    line := .unknown
    err := .none
    failPulse := none
    hostFault := 0#3
    ports := Ports.silent
    draws := 0
    lineDraw := 0
    trace := [] }

end Sys2Proof.Machine
end

