-- ==== Sys2Proof/Machine/Flags.lean ====
section
/-!
DEFINITION. The status fields: the codes of the registers, BUSY (spec/10_state.md R34), the HOSTFAULT bits (R33) and the
STATUS word (R35).
-/

namespace Sys2Proof.Machine

/-- The code of `PHASE` (R21). -/
def Phase.code : Phase → BitVec 4
  | .idle     => 0#4
  | .hdrMark  => 1#4
  | .hdrSpace => 2#4
  | .bitMark  => 3#4
  | .bitSpace => 4#4
  | .rptMark  => 5#4
  | .rptSpace => 6#4
  | .done     => 7#4
  | .failed   => 8#4

/-- The code of `SUB` (R22). -/
def Sub.code : Sub → BitVec 1
  | .emit => 0#1
  | .wait => 1#1

/-- The code of `ERR` (R31, R190). -/
def TxError.code : TxError → BitVec 2
  | .none                 => 0#2
  | .deviceUnavailable    => 1#2
  | .lineActuationFailure => 2#2
  | .clockUnavailable     => 3#2

/-- `FAIL_PULSE` as ten bits, NONE being 0x3FF (R32). -/
def failPulseCode : Option (Fin 582) → BitVec 10
  | some p => BitVec.ofNat 10 p.val
  | none   => 0x3FF#10

/-- The phases in which a transmission runs, `HDR_MARK..RPT_SPACE` (R22, R34). -/
def Phase.isPulse : Phase → Bool
  | .idle     => false
  | .hdrMark  => true
  | .hdrSpace => true
  | .bitMark  => true
  | .bitSpace => true
  | .rptMark  => true
  | .rptSpace => true
  | .done     => false
  | .failed   => false

/-- `BUSY`, derived: `PHASE ∉ (IDLE, DONE, FAILED)` (R34). -/
def State.busy (s : State) : Bool := s.pos.phase.isPulse

/-- `HOSTFAULT` bit 0, `ILLEGAL_CMD` (R33). -/
def illegalCmdBit : BitVec 3 := 0b001#3

/-- `HOSTFAULT` bit 1, `BUSY` (R33). -/
def busyBit : BitVec 3 := 0b010#3

/-- `HOSTFAULT` bit 2, `NO_PAYLOAD` (R33). -/
def noPayloadBit : BitVec 3 := 0b100#3

/-- `STATUS`, the 32-bit read-only word, from bit 31 down (R35). -/
def State.status (s : State) : BitVec 32 :=
  0#1 ++ BitVec.ofBool s.busy ++ BitVec.ofBool s.stageValid ++ s.hostFault ++ failPulseCode s.failPulse ++ s.err.code
    ++ BitVec.ofNat 3 s.pos.bitIdx.val ++ BitVec.ofNat 5 s.pos.byteIdx.val ++ BitVec.ofNat 1 s.pos.frame.val
    ++ s.pos.sub.code ++ s.pos.phase.code

end Sys2Proof.Machine
end

