-- ==== Sys2Proof/Machine/Operands.lean ====
section
/-!
DEFINITION. What a pulse takes from the position and the payload: reading a store (spec/20_memory.md R50, R51), the pulse
kind with its level and duration (spec/41_pulse_transmitter.md R122, R123), the next position (R124) and the pulse
index (R130).
-/

namespace Sys2Proof.Machine

/-- The byte at index `a` of a store; an index with no entry reads 0x00 (log 5). -/
def Memory.read : Memory → Nat → Byte
  | [], _ => 0x00#8
  | (k, v) :: m, a => if k = a then v else Memory.read m a

/-- `Bit(P, b, i) = (P[b] >> i) & 1`, as whether that bit is 1 (R12, R51). -/
def Memory.bit (m : Memory) (b : Fin 18) (i : Fin 8) : Bool := (m.read b.val).getLsbD i.val

/-- The space of a bit of value `v`: "only the *space* duration after the mark encodes 0 vs 1" (R74, R122). -/
def spaceKind : Bool → PulseKind
  | true  => .oneSpace
  | false => .zeroSpace

/-- `Kind(pos, P)`, defined only in `HDR_MARK..RPT_SPACE` (R122). -/
def Pos.kind (p : Pos) (m : Memory) : Option PulseKind :=
  match p.phase with
  | .hdrMark  => some .hdrMark
  | .hdrSpace => some .hdrSpace
  | .bitMark  => some .bitMark
  | .bitSpace => some (spaceKind (m.bit p.byteIdx p.bitIdx))
  | .rptMark  => some .rptMark
  | .rptSpace => some .rptSpace
  | .idle     => none
  | .done     => none
  | .failed   => none

/-- `Level(k)` (R73, R123). -/
def levelOf : PulseKind → Level
  | .hdrMark   => .high
  | .hdrSpace  => .low
  | .bitMark   => .high
  | .zeroSpace => .low
  | .oneSpace  => .low
  | .rptMark   => .high
  | .rptSpace  => .low

/-- `Dur(k)` in microseconds (R8, R73, R123). -/
def durationOf : PulseKind → Nat
  | .hdrMark   => Config.protocol.hdrMark
  | .hdrSpace  => Config.protocol.hdrSpace
  | .bitMark   => Config.protocol.bitMark
  | .zeroSpace => Config.protocol.zeroSpace
  | .oneSpace  => Config.protocol.oneSpace
  | .rptMark   => Config.protocol.rptMark
  | .rptSpace  => Config.protocol.rptSpace

/-- `next`, the position after a pulse completes (R124), with `SUB` left as it is. It "is not applied to" IDLE, DONE or
FAILED, where it changes nothing here. -/
def Pos.next (p : Pos) : Pos :=
  match p.phase with
  | .hdrMark  => { p with phase := .hdrSpace }
  | .hdrSpace => { p with phase := .bitMark, byteIdx := 0, bitIdx := 0 }
  | .bitMark  => { p with phase := .bitSpace }
  | .bitSpace =>
    if hi : p.bitIdx.val < 7 then { p with phase := .bitMark, bitIdx := ⟨p.bitIdx.val + 1, by omega⟩ }
    else if hb : p.byteIdx.val < 17 then
      { p with phase := .bitMark, byteIdx := ⟨p.byteIdx.val + 1, by omega⟩, bitIdx := 0 }
    else if p.frame = 0 then { p with phase := .rptMark, frame := 0, byteIdx := 17, bitIdx := 7 }
    else { p with phase := .done, frame := 1, byteIdx := 17, bitIdx := 7 }
  | .rptMark  => { p with phase := .rptSpace, frame := 0, byteIdx := 17, bitIdx := 7 }
  | .rptSpace => { p with phase := .hdrMark, frame := 1, byteIdx := 17, bitIdx := 7 }
  | .idle     => p
  | .done     => p
  | .failed   => p

/-- The first pulse index of the frame a position is in: 0 or 292 (R130). -/
def Pos.frameBase (p : Pos) : Nat := if p.frame = 0 then 0 else 292

/-- The value of `PIDX(pos)` (R130); it is defined only for `PHASE` in `HDR_MARK..RPT_SPACE`, and `Pos.pidx` says so. -/
def Pos.pulseIndex (p : Pos) : Nat :=
  match p.phase with
  | .hdrMark  => p.frameBase
  | .hdrSpace => p.frameBase + 1
  | .bitMark  => p.frameBase + 2 + 2 * (8 * p.byteIdx.val + p.bitIdx.val)
  | .bitSpace => p.frameBase + 3 + 2 * (8 * p.byteIdx.val + p.bitIdx.val)
  | .rptMark  => 290
  | .rptSpace => 291
  | .idle     => 0
  | .done     => 0
  | .failed   => 0

/-- Every pulse index is one of the 582 (R26, R130). -/
theorem Pos.pulseIndex_lt (p : Pos) : p.pulseIndex < 582 := by
  have hf : p.frameBase ≤ 292 := by unfold Pos.frameBase; split <;> omega
  have hb := p.byteIdx.isLt
  have hi := p.bitIdx.isLt
  unfold Pos.pulseIndex
  split <;> omega

/-- `PIDX(pos)`, the 0-based pulse index, for `PHASE` in `HDR_MARK..RPT_SPACE` (R130). -/
def Pos.pidx (p : Pos) : Option (Fin 582) :=
  if p.phase.isPulse then some ⟨p.pulseIndex, p.pulseIndex_lt⟩ else none

end Sys2Proof.Machine
end

