-- ==== Sys2Proof/Machine/Ops.lean ====
section
/-!
DEFINITION. The shared operations: writing a store, time arithmetic (spec/00_scope.md R14), the trace (spec/42_external_interface.md
R179), the error entry and the host faults (spec/60_exceptions.md R194, R197), the port requests (R171 to R173) and the
reset event (spec/70_reset_and_hazards.md R220).
-/

namespace Sys2Proof.Machine

/-! ### Payload stores -/

/-- A store without its entry for index `a`. -/
def Memory.without (m : Memory) (a : Nat) : Memory := m.filter (fun c => c.1 != a)

/-- Put an entry before the first one of a higher index. -/
def Memory.insertCell : Memory → Nat → Byte → Memory
  | [], a, v => [(a, v)]
  | (k, x) :: m, a, v => if a < k then (a, v) :: (k, x) :: m else (k, x) :: Memory.insertCell m a v

/-- `P[a] <- v`. Writing what an unlisted index reads as takes the entry out, so the form stays canonical. -/
def Memory.write (m : Memory) (a : Nat) (v : Byte) : Memory :=
  if v = 0x00#8 then m.without a else (m.without a).insertCell a v

/-- Write bytes at rising indices from `a` on. -/
def Memory.writeBytes : Memory → Nat → List Byte → Memory
  | m, _, [] => m
  | m, a, b :: bs => Memory.writeBytes (m.write a b) (a + 1) bs

/-- The canonical form from index `lo` on: indices strictly rising and below 18, no entry equal to 0x00. -/
def Memory.wfFrom : Nat → Memory → Bool
  | _, [] => true
  | lo, (k, v) :: m => decide (lo ≤ k) && decide (k < 18) && v != 0x00#8 && Memory.wfFrom (k + 1) m

/-- The canonical form of a payload store (log 5). -/
def Memory.wf (m : Memory) : Bool := Memory.wfFrom 0 m

/-- The 18 bytes of a store in index order. -/
def Memory.bytes (m : Memory) : List Byte := (List.range 18).map m.read

/-! ### Time -/

/-- The time `d` nanoseconds after `t`, normalised. -/
def addNs (t : AbsTime) (d : Nat) : AbsTime :=
  { sec := t.sec + (t.nsec.val + d) / 1000000000
    nsec := ⟨(t.nsec.val + d) % 1000000000, Nat.mod_lt _ (by omega)⟩ }

/-- `AddUs(t, d)`: `n = t.nsec + d * 1000; (t.sec + n div 10^9, n mod 10^9)` (R14). -/
def addUs (t : AbsTime) (d : Nat) : AbsTime := addNs t (d * 1000)

/-! ### Observation -/

/-- Add an event to the trace, with STATUS after it (R179; log 14). -/
def State.observe (s : State) (e : PortEvent) : State :=
  { s with trace := { event := e, status := s.status } :: s.trace }

/-- The actual level of the line: as last driven, or the current draw while `LINE` is UNKNOWN (R30; log 6). -/
def State.lineLevel (s : State) : Level :=
  match s.line with
  | .driven v => v
  | .unknown  => Config.lineLevelDraw s.lineDraw

/-! ### Errors and host faults -/

/-- Error entry, `raise E at i`: PHASE, SUB, ERR and FAIL_PULSE are written; FRAME, BYTE_IDX, BIT_IDX, T and PAYLOAD
keep their values (R194). -/
def State.raiseError (s : State) (e : TxError) (i : Option (Fin 582)) : State :=
  { s with pos := { s.pos with phase := .failed, sub := .emit }, err := e, failPulse := i }

/-- The line's level is no longer known: a new draw stands for it (R195, R222; log 6). -/
def State.loseLine (s : State) : State := { s with line := .unknown, lineDraw := s.lineDraw + 1 }

/-- `hostfault F`: set one sticky bit of HOSTFAULT (R33, R197). -/
def State.hostfault (s : State) (bit : BitVec 3) : State := { s with hostFault := s.hostFault ||| bit }

/-! ### Port requests -/

/-- The line's answer to the next `SetLevel` (R171): the next listed one, else a free value (log 2). -/
def State.lineAnswer (s : State) : PortAnswer :=
  match s.ports.lineAnswers with
  | a :: _ => a
  | []     => Config.setLevelAnswer s.draws

/-- That answer is used up. -/
def State.lineAnswered (s : State) : State :=
  match s.ports.lineAnswers with
  | _ :: rest => { s with ports := { s.ports with lineAnswers := rest } }
  | []        => { s with draws := s.draws + 1 }

/-- The clock's answer to the next `Now` (R172), `none` being `err`: the next listed one, else a free value (log 2). -/
def State.nowAnswer (s : State) : Option AbsTime :=
  match s.ports.nowAnswers with
  | a :: _ => a
  | []     => Config.nowAnswer s.draws

/-- That answer is used up. -/
def State.nowAnswered (s : State) : State :=
  match s.ports.nowAnswers with
  | _ :: rest => { s with ports := { s.ports with nowAnswers := rest } }
  | []        => { s with draws := s.draws + 1 }

/-- The answer to the outstanding `SleepUntil` is used up (R173; log 3). -/
def State.sleepAnswered (s : State) : State :=
  { s with ports := { s.ports with sleepAnswers := s.ports.sleepAnswers.tail } }

/-! ### Inputs and reset -/

/-- The next turn is taken (log 1). -/
def State.turnTaken (s : State) : State := { s with ports := { s.ports with turns := s.ports.turns.tail } }

/-- The bytes left on CMD after a command is taken (R80). -/
def State.withCmd (s : State) (rest : List Byte) : State := { s with ports := { s.ports with cmd := rest } }

/-- The LINE_READY input changes (R174). -/
def State.withLineReady (s : State) (b : Bool) : State := { s with ports := { s.ports with lineReady := b } }

/-- The answer to a `SleepUntil` outstanding at a reset is discarded, whenever it arrives (R220). That a discarded answer
is no `Wake` event of the trace is the model's choice: R179 and R220 do not say (log 13). -/
def State.sleepAbandoned (s : State) : State :=
  match s.pos.sub with
  | .wait => s.sleepAnswered
  | .emit => s

/-- The reset event: every register at its reset value (R40, R220), the line not driven and its level a draw (R222). The
inputs, the draws and the trace are no registers and stay (log 13). -/
def State.resetEvent (s : State) : State :=
  { State.reset with
    ports := s.sleepAbandoned.ports, draws := s.draws, lineDraw := s.lineDraw + 1, trace := s.trace }

end Sys2Proof.Machine
end

