-- ==== Sys2Proof/Machine/Builder.lean ====
section
/-!
DEFINITION. The Payload Builder (spec/40_payload_builder.md): Checksum (R102), BuildPayload (R101) and the meaning of BUILD
(R100).
-/

namespace Sys2Proof.Machine

/-- `Checksum(B)`: the sum over unbounded integers, reduced once mod 256 (R102). -/
def checksum (bytes : List Byte) : Byte := BitVec.ofNat 8 (bytes.map BitVec.toNat).sum

/-- Bytes 0 to 16 of a payload (R70, R101): MAGIC, the five operands, four clock bytes, three reserved bytes. -/
def payloadHead (power mode temperature modeFlags fanSpeed : Byte) : List Byte :=
  Config.magic ++ [power, mode, temperature, modeFlags, fanSpeed] ++ List.replicate 4 0x00#8 ++ List.replicate 3 0x00#8

/-- The 18 bytes of `BuildPayload` in index order (R101). -/
def payloadBytes (power mode temperature modeFlags fanSpeed : Byte) : List Byte :=
  payloadHead power mode temperature modeFlags fanSpeed ++ [checksum (payloadHead power mode temperature modeFlags fanSpeed)]

/-- `BuildPayload(power, mode, temperature, mode_flags, fan_speed)` (R101). -/
def buildPayload (power mode temperature modeFlags fanSpeed : Byte) : Memory :=
  Memory.writeBytes [] 0 (payloadBytes power mode temperature modeFlags fanSpeed)

/-- BUILD: latch the payload into STAGE and set STAGE_VALID, in every phase; nothing else changes (R100, R57). -/
def execBuild (power mode temperature modeFlags fanSpeed : Byte) (s : State) : Host.Outcome State Fault Refusal :=
  .next (State.observe
    { s with stage := buildPayload power mode temperature modeFlags fanSpeed, stageValid := true }
    (.cmd (.build power mode temperature modeFlags fanSpeed)))

end Sys2Proof.Machine
end

