-- ==== Sys2Proof/Machine/Command.lean ====
section
/-!
DEFINITION. The commands TRANSMIT (spec/41_pulse_transmitter.md R120) and the reserved opcodes (spec/30_encoding.md R79;
spec/60_exceptions.md R197), with their checks in the order of R198.
-/

namespace Sys2Proof.Machine

/-- The position of the first pulse of a transmission, `SUB` EMIT, with `PHASE` still as it is (R120). -/
def Pos.restart (p : Pos) : Pos := { p with sub := .emit, frame := 0, byteIdx := 0, bitIdx := 0 }

/-- What an accepted TRANSMIT writes before it looks at its ports (R120). -/
def State.accept (s : State) : State :=
  { s with payload := s.stage, pos := s.pos.restart, err := .none, failPulse := none }

/-- `T <- t0; PHASE <- HDR_MARK` (R120). -/
def State.start (s : State) (t0 : AbsTime) : State := { s with t := t0, pos := { s.pos with phase := .hdrMark } }

/-- An accepted TRANSMIT: LINE_READY is sampled, then `Now` is issued once (R120, R191, R193). -/
def State.transmitAccepted (s : State) : State :=
  if s.ports.lineReady then
    match s.nowAnswer with
    | some t0 => (((s.accept.nowAnswered).start t0).observe (.cmd .transmit)).observe (.now (some t0))
    | none    =>
      (((s.accept.nowAnswered).raiseError .clockUnavailable none).observe (.cmd .transmit)).observe (.now none)
  else (s.accept.raiseError .deviceUnavailable none).observe (.cmd .transmit)

/-- TRANSMIT (R120), the checks in the order of R198. -/
def execTransmit (s : State) : Host.Outcome State Fault Refusal :=
  .next (
    if s.busy then (s.hostfault busyBit).observe (.cmd .transmit)
    else if s.stageValid then s.transmitAccepted
    else (s.hostfault noPayloadBit).observe (.cmd .transmit))

/-- A reserved opcode: host fault ILLEGAL_CMD and no other effect (R79, R197). -/
def execReserved (opcode : Byte) (s : State) : Host.Outcome State Fault Refusal :=
  .next ((s.hostfault illegalCmdBit).observe (.cmd (.reserved opcode)))

end Sys2Proof.Machine
end

