-- ==== Sys2Proof/Machine/Pulse.lean ====
section
/-!
DEFINITION. The pulses (spec/41_pulse_transmitter.md): the EMIT step (R125), the WAKE step (R126), and one meaning for each
pulse kind (R140 to R146) and for the code that is none (R73).
-/

namespace Sys2Proof.Machine

/-- EMIT with `SetLevel` answered `ok`: LINE and T are written and the sleep is outstanding (R125). -/
def State.emitOk (s : State) (k : PulseKind) : State :=
  { s with line := .driven (levelOf k), t := addUs s.t (durationOf k), pos := { s.pos with sub := .wait } }

/-- The EMIT step of a pulse of kind `k` (R125). -/
def State.emitStep (s : State) (k : PulseKind) : State :=
  match s.lineAnswer with
  | .ok =>
    ((s.lineAnswered.emitOk k).observe (.setLevel (levelOf k) .ok)).observe (.sleepUntil (addUs s.t (durationOf k)))
  | .err =>
    (s.lineAnswered.loseLine.raiseError .lineActuationFailure s.pos.pidx).observe (.setLevel (levelOf k) .err)

/-- WAKE answered `ok`: the sequencer advances (R126). -/
def State.advance (s : State) : State := { s with pos := { s.pos.next with sub := .emit } }

/-- The WAKE step, the answer `late` nanoseconds after the deadline `T` (R170); with no answer from the clock it is not enabled and nothing changes (R126, R173; log 3). -/
def State.wakeStep (s : State) : State :=
  match s.ports.sleepAnswers with
  | .ok late :: _ => s.sleepAnswered.advance.observe (.wake (addNs s.t late) .ok)
  | .err late :: _ =>
    (s.sleepAnswered.raiseError .clockUnavailable s.pos.pidx).observe (.wake (addNs s.t late) .err)
  | [] => s

/-- The half of a pulse of kind `k` that `SUB` selects (R125, R126). Away from a pulse of that kind neither half is
enabled, and nothing changes. DESIGN CHOICE (log 9). -/
def State.pulseStep (s : State) (k : PulseKind) : State :=
  if s.pos.kind s.payload = some k then
    match s.pos.sub with
    | .emit => s.emitStep k
    | .wait => s.wakeStep
  else s

/-- HDR_MARK, the header mark of a frame (R140). -/
def execHdrMark (s : State) : Host.Outcome State Fault Refusal := .next (s.pulseStep .hdrMark)

/-- HDR_SPACE, the header space of a frame (R141). -/
def execHdrSpace (s : State) : Host.Outcome State Fault Refusal := .next (s.pulseStep .hdrSpace)

/-- BIT_MARK, the mark that starts every bit (R142). -/
def execBitMark (s : State) : Host.Outcome State Fault Refusal := .next (s.pulseStep .bitMark)

/-- ZERO_SPACE, the space of a 0 bit (R143). -/
def execZeroSpace (s : State) : Host.Outcome State Fault Refusal := .next (s.pulseStep .zeroSpace)

/-- ONE_SPACE, the space of a 1 bit (R144). -/
def execOneSpace (s : State) : Host.Outcome State Fault Refusal := .next (s.pulseStep .oneSpace)

/-- RPT_MARK, the mark of the repeat gap (R145). -/
def execRptMark (s : State) : Host.Outcome State Fault Refusal := .next (s.pulseStep .rptMark)

/-- RPT_SPACE, the long space of the repeat gap (R146). -/
def execRptSpace (s : State) : Host.Outcome State Fault Refusal := .next (s.pulseStep .rptSpace)

/-- Code 7: "not a pulse kind and is never produced" (R73); the spec gives it no effect, and it stops (log 10). -/
def execUnusedPulseKind (_s : State) : Host.Outcome State Fault Refusal := .fault .unusedPulseKind

end Sys2Proof.Machine
end

