-- ==== Sys2Proof/Machine/Dispatch.lean ====
section
/-! DEFINITION. One arm per instruction: its meaning, by name. -/

namespace Sys2Proof.Machine

def exec (i : Instr) (s : State) : Host.Outcome State Fault Refusal :=
  match i with
  -- host commands
  | .build p m t f v => Sys2Proof.Machine.execBuild p m t f v s
  | .transmit => Sys2Proof.Machine.execTransmit s
  | .reserved op => Sys2Proof.Machine.execReserved op s
  -- pulse kinds
  | .hdrMark => Sys2Proof.Machine.execHdrMark s
  | .hdrSpace => Sys2Proof.Machine.execHdrSpace s
  | .bitMark => Sys2Proof.Machine.execBitMark s
  | .zeroSpace => Sys2Proof.Machine.execZeroSpace s
  | .oneSpace => Sys2Proof.Machine.execOneSpace s
  | .rptMark => Sys2Proof.Machine.execRptMark s
  | .rptSpace => Sys2Proof.Machine.execRptSpace s
  | .unusedPulseKind => Sys2Proof.Machine.execUnusedPulseKind s

end Sys2Proof.Machine
end

