-- ==== Sys2Proof/WellFormed.lean ====
section
/-!
DEFINITION. Which terms of Instr the encodings can write down: a reserved opcode is none of the two assigned ones
(spec/30_encoding.md R76, R79). Every operand is a byte by its type, and no operand has a range check (R77, R104).
-/

namespace Sys2Proof

/-- `reserved op` is well formed when `op` is neither BUILD's opcode 0x01 nor TRANSMIT's 0x02 (R79). -/
def Instr.wellFormed : Instr → Bool
  | .reserved op     => op != 0x01#8 && op != 0x02#8
  | .build _ _ _ _ _ => true
  | .transmit        => true
  | .hdrMark         => true
  | .hdrSpace        => true
  | .bitMark         => true
  | .zeroSpace       => true
  | .oneSpace        => true
  | .rptMark         => true
  | .rptSpace        => true
  | .unusedPulseKind => true

end Sys2Proof
end

