-- ==== Sys2Proof/Decode.lean ====
section
/-!
DEFINITION. Decoding and encoding (spec/30_encoding.md R73, R76, R77, R79, R80): command bytes and three-bit pulse
kinds are two code spaces, each with its own decoder; then the encoder, and the host's numbering of table words.
-/

namespace Sys2Proof

/-- Why bytes on the command port are no instruction yet, or not exactly one. -/
inductive DecodeError where
  /-- No byte has arrived. -/
  | noOpcode
  /-- A BUILD whose five operand bytes have not all arrived: it "has not been issued" (R80). -/
  | operandsMissing
  /-- `decode` was given bytes beyond the one command it reads. -/
  | trailingBytes
  deriving DecidableEq, Repr

/-- The words an instruction is written in: command bytes (R76) or a three-bit pulse kind (R73). -/
inductive Words where
  | command (bytes : List Byte)
  | pulse (code : BitVec 3)
  deriving DecidableEq, Repr

/-- The length of a command in bytes, from its opcode byte alone (R80). -/
def commandLength (opcode : Byte) : Nat := if opcode = 0x01#8 then 6 else 1

/-- Read one command from the front of the bytes on CMD; answer it with the bytes after it (R76, R77, R79, R80). -/
def decodeCommand : List Byte → Except DecodeError (Instr × List Byte)
  | [] => .error .noOpcode
  | op :: rest =>
    if op = 0x01#8 then
      match rest with
      | p :: m :: t :: f :: s :: rest' => .ok (.build p m t f s, rest')
      | _ => .error .operandsMissing
    else if op = 0x02#8 then .ok (.transmit, rest)
    else .ok (.reserved op, rest)

/-- Read a three-bit pulse-kind code (R73). -/
def decodePulse (code : BitVec 3) : Instr :=
  match code.toNat with
  | 0 => .hdrMark
  | 1 => .hdrSpace
  | 2 => .bitMark
  | 3 => .zeroSpace
  | 4 => .oneSpace
  | 5 => .rptMark
  | 6 => .rptSpace
  | _ => .unusedPulseKind

/-- The three-bit code of a pulse kind (R73). -/
def PulseKind.code : PulseKind → BitVec 3
  | .hdrMark   => 0#3
  | .hdrSpace  => 1#3
  | .bitMark   => 2#3
  | .zeroSpace => 3#3
  | .oneSpace  => 4#3
  | .rptMark   => 5#3
  | .rptSpace  => 6#3

/-- Decode words that hold exactly one instruction. -/
def decode : Words → Except DecodeError Instr
  | .command bytes =>
    match decodeCommand bytes with
    | .ok (i, [])     => .ok i
    | .ok (_, _ :: _) => .error .trailingBytes
    | .error e        => .error e
  | .pulse code => .ok (decodePulse code)

/-- The words of an instruction (R73, R76, R77). -/
def encode : Instr → Words
  | .build p m t f s => .command [0x01#8, p, m, t, f, s]
  | .transmit        => .command [0x02#8]
  | .reserved op     => .command [op]
  | .hdrMark         => .pulse 0b000#3
  | .hdrSpace        => .pulse 0b001#3
  | .bitMark         => .pulse 0b010#3
  | .zeroSpace       => .pulse 0b011#3
  | .oneSpace        => .pulse 0b100#3
  | .rptMark         => .pulse 0b101#3
  | .rptSpace        => .pulse 0b110#3
  | .unusedPulseKind => .pulse 0b111#3

/-- The `n` bytes of `w`, the first byte in bits 7..0 (the table's numbering). -/
def bytesOf : Nat → Nat → List Byte
  | 0, _ => []
  | n + 1, w => BitVec.ofNat 8 w :: bytesOf n (w / 256)

/-- Whether a table word is a pulse kind. A word of fewer than 8 bits is one (R73: three bits). A word of 8 bits is
one where the table gives it no other row: the PULSE rows' three bits count as one whole byte there, and the
command rows with a word are 0x01 and 0x02. DESIGN CHOICE (log 11): this concerns the host's numbering of table
words alone; on the command port such a byte is a command (`decodeCommand`). -/
def tableWordIsPulse (nbits w : Nat) : Bool :=
  decide (w < 8) && (decide (nbits < 8) || (nbits == 8 && w != 1 && w != 2))

/-- The command bytes of a table word: the bytes of `w`, zeros above, cut to the length its opcode gives (R80). -/
def tableWordBytes (nbits w : Nat) : List Byte :=
  let w' := w % 2 ^ nbits
  (bytesOf 6 w').take (commandLength (BitVec.ofNat 8 w'))

/-- The instruction the decoder reads from a word of spec/opcode_table.json (log 11). -/
def decodeTableWord (nbits w : Nat) : Option Instr :=
  if tableWordIsPulse nbits w then some (decodePulse (BitVec.ofNat 3 w))
  else if nbits < 8 then none
  else
    match decode (.command (tableWordBytes nbits w)) with
    | .ok i    => some i
    | .error _ => none

end Sys2Proof
end

