-- ==== Sys2Proof/Machine/Fetch.lean ====
section
/-!
DEFINITION. Where the next instruction comes from: a command from the bytes on CMD (spec/30_encoding.md R76, R80), a pulse from
the sequencer's Kind (spec/41_pulse_transmitter.md R122) through its three-bit code (R73); and placing one for the host.
-/

namespace Sys2Proof.Machine

/-- The pulse the engine is to run, read from its three-bit code; none while no transmission runs (R73, R122). -/
def State.fetchPulse (s : State) : Option Instr := (s.pos.kind s.payload).map (fun k => decodePulse k.code)

/-- The command at the front of CMD with the bytes after it; none while no whole command has arrived (R80). -/
def State.fetchCommand (s : State) : Option (Instr × List Byte) :=
  match decodeCommand s.ports.cmd with
  | .ok r    => some r
  | .error _ => none

/-- Whose turn is next: the first listed one, else the engine's, since "EMIT … is the only step then enabled for the
block" where no outside event comes (R125, R198; log 1). -/
def State.nextTurn (s : State) : Turn :=
  match s.ports.turns with
  | t :: _ => t
  | []     => .engine

/-- A position at which the sequencer's next pulse is of kind `k` (R122, R130): the first such pulse of a transmission. -/
def placeOf : PulseKind → Pos
  | .hdrMark   => { phase := .hdrMark, sub := .emit, frame := 0, byteIdx := 0, bitIdx := 0 }
  | .hdrSpace  => { phase := .hdrSpace, sub := .emit, frame := 0, byteIdx := 0, bitIdx := 0 }
  | .bitMark   => { phase := .bitMark, sub := .emit, frame := 0, byteIdx := 0, bitIdx := 0 }
  | .zeroSpace => { phase := .bitSpace, sub := .emit, frame := 0, byteIdx := 0, bitIdx := 0 }
  | .oneSpace  => { phase := .bitSpace, sub := .emit, frame := 0, byteIdx := 0, bitIdx := 0 }
  | .rptMark   => { phase := .rptMark, sub := .emit, frame := 0, byteIdx := 17, bitIdx := 7 }
  | .rptSpace  => { phase := .rptSpace, sub := .emit, frame := 0, byteIdx := 17, bitIdx := 7 }

/-- `s` with the sequencer at a pulse of kind `k` and the engine's turn next; for a bit space, bit 0 of payload byte 0
has the bit's value (log 12). -/
def State.withPulse (s : State) (k : PulseKind) : State :=
  { s with
    pos := placeOf k
    payload :=
      match k with
      | .zeroSpace => s.payload.write 0 0x00#8
      | .oneSpace  => s.payload.write 0 0x01#8
      | _          => s.payload
    ports := { s.ports with turns := .engine :: s.ports.turns } }

/-- `s` with a command's bytes at the front of CMD and the command's turn next (log 12). -/
def State.withCommandBytes (s : State) (bytes : List Byte) : State :=
  { s with ports := { s.ports with turns := .command :: s.ports.turns, cmd := bytes ++ s.ports.cmd } }

/-- The pulse kind of a three-bit code; none for code 7 (R73). -/
def kindOfCode (code : Nat) : Option PulseKind :=
  match code with
  | 0 => some .hdrMark
  | 1 => some .hdrSpace
  | 2 => some .bitMark
  | 3 => some .zeroSpace
  | 4 => some .oneSpace
  | 5 => some .rptMark
  | 6 => some .rptSpace
  | _ => none

/-- `s` with a table word placed where it is fetched next (logs 11, 12). Code 7 cannot be placed: Kind never gives it. -/
def State.placeTableWord (s : State) (nbits w : Nat) : State :=
  if tableWordIsPulse nbits w then
    match kindOfCode w with
    | some k => s.withPulse k
    | none   => s
  else s.withCommandBytes (tableWordBytes nbits w)

end Sys2Proof.Machine
end

