-- ==== Sys2Proof/Machine/Step.lean ====
section
/-!
DEFINITION. One step: the event whose turn it is (spec/60_exceptions.md R198). A command is performed whole; the engine's turn
is one EMIT or WAKE step; an event that is not enabled changes nothing but its turn (R206).
-/

namespace Sys2Proof.Machine

/-- The engine's turn: the pulse at the position, if a transmission runs (R125, R126). -/
def runEngine (s : State) : Host.Outcome State Fault Refusal :=
  match s.fetchPulse with
  | some i => exec i s
  | none   => .next s

/-- The host's turn: the command at the front of CMD, if one has arrived whole (R80). -/
def runCommand (s : State) : Host.Outcome State Fault Refusal :=
  match s.fetchCommand with
  | some (i, rest) => exec i (s.withCmd rest)
  | none           => .next s

/-- One step of the machine (R198). -/
def step (s : State) : Host.Outcome State Fault Refusal :=
  match s.nextTurn with
  | .engine      => runEngine s.turnTaken
  | .command     => runCommand s.turnTaken
  | .reset       => .next s.turnTaken.resetEvent
  | .lineReady b => .next (s.turnTaken.withLineReady b)

/-- `s` with a word of spec/opcode_table.json placed so that the very next step runs it (logs 11, 12). -/
def State.withFetchWord (s : State) (nbits w : Nat) : State := s.placeTableWord nbits w

end Sys2Proof.Machine
end

