-- ==== Sys2Proof/Machine/Schedule.lean ====
section
/-!
DEFINITION. What a whole transmission is, as functions of its payload: the grammar (spec/30_encoding.md R74, R75), the Pulse
Schedule, the deadlines and the nominal length (spec/41_pulse_transmitter.md R129, R132, R136), its part of the trace
(spec/42_external_interface.md R179) and the level changes on the line (R133). The block stores none of it (R36): the step
does not use these definitions, and claims compare the step with them.
-/

namespace Sys2Proof.Machine

/-- `BitSym(v)`: the two pulses of a bit (R74, R75). -/
def bitSym (v : Bool) : List PulseKind := [.bitMark, spaceKind v]

/-- The bits of a payload in wire order: byte index ascending, bit 0 first (R53). -/
def wireBits (m : Memory) : List Bool :=
  (List.finRange 18).flatMap fun b => (List.finRange 8).map fun i => m.bit b i

/-- `Frame(P)`: the header, then every bit (R75). -/
def frameOf (m : Memory) : List PulseKind := [.hdrMark, .hdrSpace] ++ (wireBits m).flatMap bitSym

/-- `RepeatGap` (R75). -/
def repeatGap : List PulseKind := [.rptMark, .rptSpace]

/-- `Transmission(P)`: frame, repeat gap, frame (R75). -/
def transmission (m : Memory) : List PulseKind := frameOf m ++ repeatGap ++ frameOf m

/-- `Schedule(P)`, the (level, duration) pairs (R129). -/
def schedule (m : Memory) : List (Level × Nat) := (transmission m).map fun k => (levelOf k, durationOf k)

/-- `dur_p`, the duration of pulse `p` in microseconds (R129). -/
def pulseDuration (m : Memory) (p : Nat) : Nat :=
  match (schedule m)[p]? with
  | some x => x.2
  | none   => 0

/-- `level_p`, the level of pulse `p` (R129, R137). -/
def pulseLevel (m : Memory) (p : Nat) : Level :=
  match (schedule m)[p]? with
  | some x => x.1
  | none   => .low

/-- The sum of the durations of the first `n` pulses: `S_p` is `offsetAfter m (p + 1)` (R132). -/
def offsetAfter (m : Memory) : Nat → Nat
  | 0     => 0
  | n + 1 => offsetAfter m n + pulseDuration m n

/-- `D_p = AddUs(t0, S_p)` (R132). -/
def deadline (t0 : AbsTime) (m : Memory) (p : Nat) : AbsTime := addUs t0 (offsetAfter m (p + 1))

/-- The value of `T` when `n` pulses have been started: `t0`, then the deadline of the last one (R132). -/
def deadlineAfter (t0 : AbsTime) (m : Memory) (n : Nat) : AbsTime := addUs t0 (offsetAfter m n)

/-- The number of 1 bits in the 18 bytes (R136). -/
def onesOf (m : Memory) : Nat := (wireBits m).count true

/-- The trace of pulses `p, p + 1, …`, one for each of `lates`, every answer `ok` and each wake `late` nanoseconds after
its deadline (R179). -/
def pulseEvents (t0 : AbsTime) (m : Memory) : Nat → List Nat → List PortEvent
  | _, [] => []
  | p, late :: lates =>
    [.setLevel (pulseLevel m p) .ok, .sleepUntil (deadline t0 m p), .wake (addNs (deadline t0 m p) late) .ok]
      ++ pulseEvents t0 m (p + 1) lates

/-- The level changes of a trace (oldest event first) with their times: the line changes to `level_0` when `Now` is
answered and to `level_(p+1)` when pulse `p`'s sleep is answered, `SetLevel` taking effect at once (R133, R171; log 18). A `SetLevel` answered `err`
"may or may not have changed the line" (R195): whether it did, and when, is left open, and that this list has no change
for it is the model's choice (log 24).
`at` is the time of the last clock answer. -/
def levelChanges : Option AbsTime → List PortEvent → List (AbsTime × Level)
  | _, [] => []
  | _, .now (some t0) :: es => levelChanges (some t0) es
  | _, .wake w _ :: es => levelChanges (some w) es
  | some w, .setLevel v .ok :: es => (w, v) :: levelChanges (some w) es
  | at?, .now none :: es => levelChanges at? es
  | at?, .setLevel _ _ :: es => levelChanges at? es
  | at?, .cmd _ :: es => levelChanges at? es
  | at?, .sleepUntil _ :: es => levelChanges at? es

end Sys2Proof.Machine
end

