-- ==== Sys2Proof/Machine/Text.lean ====
section
/-!
DEFINITION. The text forms (spec/30_encoding.md R81, R82, R83, D29): the assembler of host programs, its pseudo-commands, and
the text of a schedule. Text is a list of characters, so that the kernel can run it (log 23).
-/

namespace Sys2Proof.Machine

/-- A line of a host program (R81, R82). -/
inductive AsmLine where
  | command (i : Instr)
  | send (power mode temperature modeFlags fanSpeed : Byte)
  | waitDone
  | blank
  deriving DecidableEq, Repr

/-- The commands a line stands for: `SEND` is BUILD then TRANSMIT, `WAITDONE` encodes no command byte (R82). -/
def AsmLine.expand : AsmLine → List Instr
  | .command i      => [i]
  | .send p m t f s => [.build p m t f s, .transmit]
  | .waitDone       => []
  | .blank          => []

/-- Whether the host's `WAITDONE` loop ends on a STATUS word: `BUSY` = 0 (R82, R35). -/
def waitDoneEnds (status : BitVec 32) : Bool := !status.getLsbD 30

/-- The bytes a host sends for a command; a pulse kind has none (R76). -/
def commandBytes (i : Instr) : List Byte :=
  match encode i with
  | .command bytes => bytes
  | .pulse _       => []

/-- Blanks between words. -/
def isBlank (c : Char) : Bool := c == ' ' || c == '\t' || c == '\r'

/-- Text without blanks at either end. -/
def trim (cs : List Char) : List Char := ((cs.dropWhile isBlank).reverse.dropWhile isBlank).reverse

/-- Cut a text at every `sep`. -/
def splitAt (sep : Char) : List Char → List (List Char)
  | [] => [[]]
  | c :: cs =>
    if c == sep then [] :: splitAt sep cs
    else
      match splitAt sep cs with
      | w :: ws => (c :: w) :: ws
      | []      => [[c]]

/-- The value of a digit in a base. -/
def digitValue (base : Nat) (c : Char) : Option Nat :=
  let n := c.toNat
  let v := if 48 ≤ n && n ≤ 57 then n - 48 else if 65 ≤ n && n ≤ 70 then n - 55
    else if 97 ≤ n && n ≤ 102 then n - 87 else base
  if v < base then some v else none

/-- The value of digits after a value already read. -/
def digitsValue (base : Nat) : Nat → List Char → Option Nat
  | acc, [] => some acc
  | acc, c :: cs =>
    match digitValue base c with
    | some v => digitsValue base (acc * base + v) cs
    | none   => none

/-- An operand: a decimal or `0x` hexadecimal integer 0..255 (R81). -/
def parseByte (cs : List Char) : Option Byte :=
  let n := match cs with
    | []                  => none
    | '0' :: 'x' :: []    => none
    | '0' :: 'x' :: digits => digitsValue 16 0 digits
    | digits              => digitsValue 10 0 digits
  match n with
  | some v => if v < 256 then some (BitVec.ofNat 8 v) else none
  | none   => none

/-- Operands separated by commas (R81). -/
def parseOperands (cs : List Char) : Option (List Byte) :=
  if (trim cs).isEmpty then some [] else (splitAt ',' cs).mapM fun w => parseByte (trim w)

/-- One line of a host program: a `;` starts a comment (R81); a reserved opcode is written `.byte 0xNN` (R82). -/
def parseLine (line : List Char) : Option AsmLine :=
  let code := trim (line.takeWhile (· != ';'))
  let word := code.takeWhile (fun c => !isBlank c)
  match parseOperands (code.dropWhile (fun c => !isBlank c)) with
  | none => none
  | some ops =>
    if word = [] then some .blank
    else if word = ['B', 'U', 'I', 'L', 'D'] then
      match ops with
      | [p, m, t, f, s] => some (.command (.build p m t f s))
      | _ => none
    else if word = ['S', 'E', 'N', 'D'] then
      match ops with
      | [p, m, t, f, s] => some (.send p m t f s)
      | _ => none
    else if word = ['T', 'R', 'A', 'N', 'S', 'M', 'I', 'T'] then if ops = [] then some (.command .transmit) else none
    else if word = ['W', 'A', 'I', 'T', 'D', 'O', 'N', 'E'] then if ops = [] then some .waitDone else none
    else if word = ['.', 'b', 'y', 't', 'e'] then
      match ops with
      | [op] => if (Instr.reserved op).wellFormed then some (.command (.reserved op)) else none
      | _ => none
    else none

/-- The lines of a host program, or none where a line is no line of the syntax (R81). -/
def parseProgram (text : List Char) : Option (List AsmLine) := (splitAt '\n' text).mapM parseLine

/-- The command bytes of a host program (R81, R82). -/
def assemble (text : List Char) : Option (List Byte) :=
  (parseProgram text).map fun ls => (ls.flatMap AsmLine.expand).flatMap commandBytes

/-- The text of a pulse: `M<d>` is a mark of d µs and `S<d>` a space (R83). -/
def pulseText (pulse : Level × Nat) : List Char :=
  (match pulse.1 with
    | .high => 'M'
    | .low  => 'S') :: Nat.toDigits 10 pulse.2

/-- The text of a schedule, pulses separated by spaces (R83). -/
def scheduleText (pulses : List (Level × Nat)) : List Char := [' '].intercalate (pulses.map pulseText)

end Sys2Proof.Machine
end

