-- ==== Sys2Proof/Safety.lean ====
section
/-!
DEFINITION. The terms claims are stated in: which states a run may be in (`State.Inv`), a state on its schedule
(`State.OnSchedule`), a run without misuse or error, and what an instruction leaves unchanged.
-/

namespace Sys2Proof.Machine

/-- A payload as BuildPayload makes it (R105, R106). -/
def IsBuilt (m : Memory) : Prop := ∃ p md t f v, m = buildPayload p md t f v

/-- The other level (R137). -/
def opposite : Level → Level
  | .high => .low
  | .low  => .high

/-- The positions of a transmission, of its end and of an idle or failed block (R22, R23, R24, R25, R135). -/
structure Pos.Legal (p : Pos) : Prop where
  /-- "SUB = WAIT only with PHASE in HDR_MARK..RPT_SPACE" (R22). -/
  wait_in_pulse : p.sub = .wait → p.phase.isPulse = true
  /-- "PHASE is RPT_MARK or RPT_SPACE only with FRAME = 0" (R23); the indices there are 17 and 7 (R24, R25). -/
  gap : p.phase = .rptMark ∨ p.phase = .rptSpace → p.frame = 0 ∧ p.byteIdx = 17 ∧ p.bitIdx = 7
  /-- The indices in the header of frame 0 (R24, R25). -/
  header_first : p.phase = .hdrMark ∨ p.phase = .hdrSpace → p.frame = 0 → p.byteIdx = 0 ∧ p.bitIdx = 0
  /-- The indices in the header of frame 1 (R24, R25). -/
  header_second : p.phase = .hdrMark ∨ p.phase = .hdrSpace → p.frame = 1 → p.byteIdx = 17 ∧ p.bitIdx = 7
  /-- The position of DONE (R135). -/
  done : p.phase = .done → p.frame = 1 ∧ p.byteIdx = 17 ∧ p.bitIdx = 7

/-- What holds of every state of a run. -/
structure State.Inv (s : State) : Prop where
  pos_legal : s.pos.Legal
  /-- "ERR != NONE exactly when PHASE = FAILED" (R31). -/
  err_iff_failed : s.err ≠ .none ↔ s.pos.phase = .failed
  /-- FAIL_PULSE is NONE unless a transmission has failed (R32). -/
  fail_pulse : s.failPulse ≠ none → s.pos.phase = .failed
  /-- STAGE, once valid, is a payload of BuildPayload (R105). -/
  stage_built : s.stageValid = true → IsBuilt s.stage
  /-- PAYLOAD, once a TRANSMIT was accepted, is one too (R105, R106). -/
  payload_built : s.pos.phase ≠ .idle → IsBuilt s.payload
  /-- A running transmission was staged (R120). -/
  busy_staged : s.busy = true → s.stageValid = true
  /-- While a sleep is outstanding the line is at the pulse's level (R22, R125). -/
  wait_line : ∀ k, s.pos.sub = .wait → s.pos.kind s.payload = some k → s.line = .driven (levelOf k)
  /-- Before every `SetLevel` but the first of a transmission the line is at the other level (R137). -/
  emit_line : ∀ k, s.pos.sub = .emit → s.pos.kind s.payload = some k → s.pos.pidx ≠ some 0 →
    s.line = .driven (opposite (levelOf k))
  /-- After a complete transmission the line is low (R135). -/
  done_line : s.pos.phase = .done → s.line = .driven .low
  stage_wf : s.stage.wf = true
  payload_wf : s.payload.wf = true

/-- `T` is where a transmission begun at `t0` has it: `t0` before the first pulse, the deadline of the last pulse
started after it, and of pulse 581 when the transmission is DONE (R132, R135). -/
def State.OnSchedule (t0 : AbsTime) (s : State) : Prop :=
  (∀ p, s.pos.pidx = some p → s.pos.sub = .emit → s.t = deadlineAfter t0 s.payload p.val) ∧
  (∀ p, s.pos.pidx = some p → s.pos.sub = .wait → s.t = deadlineAfter t0 s.payload (p.val + 1)) ∧
  (s.pos.phase = .done → s.t = deadlineAfter t0 s.payload 582)

/-- A state after a safe run: no command was misused (R197) and no transmission has failed (R190). -/
def State.Clean (s : State) : Prop := s.hostFault = 0#3 ∧ s.err = .none

/-- The readings of the clock in a trace, oldest event first (R172, R173). -/
def clockReadings : List PortEvent → List AbsTime
  | [] => []
  | .now (some t) :: es => t :: clockReadings es
  | .wake w _ :: es => w :: clockReadings es
  | .now none :: es => clockReadings es
  | .cmd _ :: es => clockReadings es
  | .setLevel _ _ :: es => clockReadings es
  | .sleepUntil _ :: es => clockReadings es

/-- The premise a claim about physical pulse widths needs: a monotonic clock's readings do not step back (R175, D12;
log 8). No rule of the step depends on it. -/
def ClockConsistent (events : List PortEvent) : Prop :=
  Config.clockKind = .monotonic → (clockReadings events).Pairwise fun a b => a.ns ≤ b.ns

/-- The events of a state's trace, oldest first (R179). -/
def State.events (s : State) : List PortEvent := (s.trace.map (·.event)).reverse

/-- Every byte of both payload stores reads as before. -/
def StoresUnchanged (s u : State) : Prop :=
  ∀ a, u.stage.read a = s.stage.read a ∧ u.payload.read a = s.payload.read a

/-- The inputs are as before, but for the answers to port requests. -/
def InputsUnchanged (s u : State) : Prop :=
  u.ports.turns = s.ports.turns ∧ u.ports.cmd = s.ports.cmd ∧ u.ports.lineReady = s.ports.lineReady

/-- The instruction answers a next state in which a pulse has been started: the line at `level`, `T` advanced by `us`
microseconds, the sleep until the new `T` outstanding, and nothing else changed (R125). -/
def StartsPulse (i : Instr) (s : State) (level : Level) (us : Nat) : Prop :=
  ∃ u, exec i s = .next u ∧
    u.line = .driven level ∧ u.t.ns = s.t.ns + us * 1000 ∧ u.pos = { s.pos with sub := .wait } ∧
    u.events = s.events ++ [.setLevel level .ok, .sleepUntil u.t] ∧
    StoresUnchanged s u ∧ InputsUnchanged s u ∧
    u.ports.lineAnswers = s.ports.lineAnswers.tail ∧ u.ports.nowAnswers = s.ports.nowAnswers ∧
    u.ports.sleepAnswers = s.ports.sleepAnswers ∧
    u.stageValid = s.stageValid ∧ u.err = s.err ∧ u.failPulse = s.failPulse ∧ u.hostFault = s.hostFault

/-- The instruction answers a next state in which `SetLevel` has failed: LINE_ACTUATION_FAILURE at pulse `p`, the line
UNKNOWN, `T` not advanced, no sleep requested, and nothing else changed (R125, R192, R194, R195). -/
def FailsToSetLevel (i : Instr) (s : State) (level : Level) (p : Fin 582) : Prop :=
  ∃ u, exec i s = .next u ∧
    u.line = .unknown ∧ u.t = s.t ∧ u.pos = { s.pos with phase := .failed, sub := .emit } ∧
    u.err = .lineActuationFailure ∧ u.failPulse = some p ∧
    u.events = s.events ++ [.setLevel level .err] ∧
    StoresUnchanged s u ∧ InputsUnchanged s u ∧
    u.ports.lineAnswers = s.ports.lineAnswers.tail ∧ u.ports.nowAnswers = s.ports.nowAnswers ∧
    u.ports.sleepAnswers = s.ports.sleepAnswers ∧
    u.stageValid = s.stageValid ∧ u.hostFault = s.hostFault

/-- The instruction answers a next state in which its pulse has ended: the sequencer at `q`, the wake at a time no
earlier than the deadline `T`, and nothing else changed (R126, R173). -/
def EndsPulse (i : Instr) (s : State) (late : Nat) (q : Pos) : Prop :=
  ∃ u w, exec i s = .next u ∧
    u.pos = q ∧ w.ns = s.t.ns + late ∧ u.events = s.events ++ [.wake w .ok] ∧
    u.t = s.t ∧ u.line = s.line ∧
    StoresUnchanged s u ∧ InputsUnchanged s u ∧
    u.ports.sleepAnswers = s.ports.sleepAnswers.tail ∧ u.ports.nowAnswers = s.ports.nowAnswers ∧
    u.ports.lineAnswers = s.ports.lineAnswers ∧
    u.stageValid = s.stageValid ∧ u.err = s.err ∧ u.failPulse = s.failPulse ∧ u.hostFault = s.hostFault

/-- The instruction answers a next state in which the pulse's sleep has failed: CLOCK_UNAVAILABLE at pulse `p`, the
answer at a time no earlier than the deadline `T`, the line as it was, and nothing else changed (R126, R170, R193, R194,
R195). -/
def FailsToSleep (i : Instr) (s : State) (late : Nat) (p : Fin 582) : Prop :=
  ∃ u w, exec i s = .next u ∧ w.ns = s.t.ns + late ∧
    u.pos = { s.pos with phase := .failed, sub := .emit } ∧ u.err = .clockUnavailable ∧ u.failPulse = some p ∧
    u.events = s.events ++ [.wake w .err] ∧ u.t = s.t ∧ u.line = s.line ∧
    StoresUnchanged s u ∧ InputsUnchanged s u ∧
    u.ports.sleepAnswers = s.ports.sleepAnswers.tail ∧ u.ports.nowAnswers = s.ports.nowAnswers ∧
    u.ports.lineAnswers = s.ports.lineAnswers ∧
    u.stageValid = s.stageValid ∧ u.hostFault = s.hostFault

/-- The position after a bit's space: the next bit of the byte, the first bit of the next byte, the repeat gap after
frame 0, or the end after frame 1 (R124). -/
def AfterBitSpace (p q : Pos) : Prop :=
  q.sub = .emit ∧
  (p.bitIdx.val < 7 → q.phase = .bitMark ∧ q.frame = p.frame ∧ q.byteIdx = p.byteIdx ∧ q.bitIdx.val = p.bitIdx.val + 1) ∧
  (p.bitIdx.val = 7 → p.byteIdx.val < 17 →
    q.phase = .bitMark ∧ q.frame = p.frame ∧ q.byteIdx.val = p.byteIdx.val + 1 ∧ q.bitIdx = 0) ∧
  (p.bitIdx.val = 7 → p.byteIdx.val = 17 → p.frame = 0 →
    q.phase = .rptMark ∧ q.frame = 0 ∧ q.byteIdx = 17 ∧ q.bitIdx = 7) ∧
  (p.bitIdx.val = 7 → p.byteIdx.val = 17 → p.frame = 1 →
    q.phase = .done ∧ q.frame = 1 ∧ q.byteIdx = 17 ∧ q.bitIdx = 7)

/-- No register but HOSTFAULT, and no input, differs; nothing was requested of a port (R197). -/
def OnlyHostfaultDiffers (s u : State) : Prop :=
  u.pos = s.pos ∧ StoresUnchanged s u ∧ u.stageValid = s.stageValid ∧ u.t = s.t ∧ u.line = s.line ∧
    u.err = s.err ∧ u.failPulse = s.failPulse ∧ u.ports = s.ports ∧ u.draws = s.draws ∧ u.lineDraw = s.lineDraw

end Sys2Proof.Machine
end

