-- ==== Sys2Proof/Certificates/Slice0/Obligations.lean ====
section
/-!
DEFINITION. The statements for the provers. Each docstring names the rules of spec/ it formalises, or the model's choice it
is about.
-/

open Sys2Proof Sys2Proof.Machine

/-! ### Encoding -/

/-- Words written out from the encodings of R73 and R76 decode to the instructions they stand for. -/
def Obligations.SampleWordsDecode : Prop :=
  decode (.command [0x01#8, 0x20#8, 0x08#8, 0x05#8, 0x30#8, 0x63#8]) = .ok (.build 0x20#8 0x08#8 0x05#8 0x30#8 0x63#8) ∧
  decode (.command [0x02#8]) = .ok .transmit ∧
  decode (.command [0x00#8]) = .ok (.reserved 0x00#8) ∧
  decode (.command [0xFF#8]) = .ok (.reserved 0xFF#8) ∧
  decode (.pulse 0b000#3) = .ok .hdrMark ∧
  decode (.pulse 0b001#3) = .ok .hdrSpace ∧
  decode (.pulse 0b010#3) = .ok .bitMark ∧
  decode (.pulse 0b011#3) = .ok .zeroSpace ∧
  decode (.pulse 0b100#3) = .ok .oneSpace ∧
  decode (.pulse 0b101#3) = .ok .rptMark ∧
  decode (.pulse 0b110#3) = .ok .rptSpace ∧
  decode (.pulse 0b111#3) = .ok .unusedPulseKind

/-- The length of a command is decided by its opcode byte alone, and its operands are taken as they are (R77, R80): 0x01
takes exactly five operand bytes and is no command before they have all arrived; any other opcode takes none. -/
def Obligations.CommandLengthFromOpcode : Prop :=
  ∀ (op : Byte) (rest : List Byte),
    (op = 0x01#8 → ∀ p m t f v rest', rest = p :: m :: t :: f :: v :: rest' →
      decodeCommand (op :: rest) = .ok (.build p m t f v, rest')) ∧
    (op = 0x01#8 → rest.length < 5 → decodeCommand (op :: rest) = .error .operandsMissing) ∧
    (op = 0x02#8 → decodeCommand (op :: rest) = .ok (.transmit, rest)) ∧
    (op ≠ 0x01#8 → op ≠ 0x02#8 → decodeCommand (op :: rest) = .ok (.reserved op, rest))

/-- Decoding the words of a well-formed instruction gives it back, with every operand (R73, R76, R77, R79). -/
def Obligations.DecodeOfEncode : Prop :=
  ∀ i : Instr, i.wellFormed = true → decode (encode i) = .ok i

/-- Words that decode have one meaning: they are the words of the well-formed instruction they decode to. -/
def Obligations.EncodeOfDecode : Prop :=
  ∀ (w : Words) (i : Instr), decode w = .ok i → i.wellFormed = true ∧ encode i = w

/-! ### One step -/

/-- On the host's turn a step is exec of the command at the front of CMD, at the state with its bytes and the turn
taken away, and with nothing else changed (R80, R198). The list of turns is the model's form of the open order of events
(log 1), CMD as a queue of bytes that of the command port (log 15). -/
def Obligations.StepRunsDecodedCommand : Prop :=
  ∀ (s : State) (i : Instr) (rest : List Byte),
    s.nextTurn = .command → decodeCommand s.ports.cmd = .ok (i, rest) →
      step s = exec i { s with ports := { s.ports with turns := s.ports.turns.tail, cmd := rest } }

/-- On the engine's turn, at a position of kind `k`, a step is exec of the instruction that `k`'s three-bit code
decodes to, at the state with the turn taken away (R73, R122, R125, R126). The list of turns is the model's form of the
open order of events (log 1). -/
def Obligations.StepRunsDecodedPulse : Prop :=
  ∀ (s : State) (k : PulseKind) (i : Instr),
    s.nextTurn = .engine → s.pos.kind s.payload = some k → decode (.pulse k.code) = .ok i →
      step s = exec i { s with ports := { s.ports with turns := s.ports.turns.tail } }

/-- The model's choice (logs 1, 3, 15): the turn of an event that is not enabled passes, and changes nothing else. No event
is enabled for the engine in IDLE, DONE and FAILED (R194, R206) and in WAIT while the clock has not answered (R126), nor for
the host while no whole command has arrived (R80). Those rules say what is enabled; that such a turn is a step that passes is
the model's form of the open order of events (log 1), of a clock that has not answered (log 3) and of the command port
(log 15). -/
def Obligations.StepWaitsWithNothingEnabled : Prop :=
  ∀ s : State,
    (s.nextTurn = .engine → s.pos.phase = .idle ∨ s.pos.phase = .done ∨ s.pos.phase = .failed →
      step s = .next { s with ports := { s.ports with turns := s.ports.turns.tail } }) ∧
    (s.nextTurn = .engine → s.pos.sub = .wait → s.ports.sleepAnswers = [] →
      step s = .next { s with ports := { s.ports with turns := s.ports.turns.tail } }) ∧
    (∀ e, s.nextTurn = .command → decodeCommand s.ports.cmd = .error e →
      step s = .next { s with ports := { s.ports with turns := s.ports.turns.tail } })

/-- No state stops the machine: every step answers a next state. -/
def Obligations.StepAlwaysGoesOn : Prop :=
  ∀ s : State, ∃ u, step s = .next u

/-! ### Reset -/

/-- The registers after reset, those the spec gives a value, and STATUS; the actual line level is LINE_INIT (R40). -/
def Obligations.ResetRegisterValues : Prop :=
  State.reset.pos = { phase := .idle, sub := .emit, frame := 0, byteIdx := 0, bitIdx := 0 } ∧
  State.reset.stageValid = false ∧ State.reset.line = .unknown ∧ State.reset.err = .none ∧
  State.reset.failPulse = none ∧ State.reset.hostFault = 0#3 ∧ State.reset.status = 0x03FF0000#32 ∧
  State.reset.lineLevel = Config.lineInit

/-- A reset, in any state, sets every register the spec gives a reset value, records no error, issues no request and
leaves the line undriven (R220, R222). The answer to a sleep outstanding at the reset is discarded; that it is the
first one listed is the model's form of the input (log 13). -/
def Obligations.ResetEventAbandons : Prop :=
  ∀ s : State, s.nextTurn = .reset →
    ∃ u, step s = .next u ∧
      u.pos = { phase := .idle, sub := .emit, frame := 0, byteIdx := 0, bitIdx := 0 } ∧
      u.stageValid = false ∧ u.line = .unknown ∧ u.err = .none ∧ u.failPulse = none ∧ u.hostFault = 0#3 ∧
      u.status = 0x03FF0000#32 ∧ u.events = s.events ∧
      u.ports.lineAnswers = s.ports.lineAnswers ∧ u.ports.nowAnswers = s.ports.nowAnswers ∧
      u.ports.cmd = s.ports.cmd ∧ u.ports.lineReady = s.ports.lineReady ∧
      (s.pos.sub = .wait → u.ports.sleepAnswers = s.ports.sleepAnswers.tail) ∧
      (s.pos.sub = .emit → u.ports.sleepAnswers = s.ports.sleepAnswers)

/-! ### BUILD -/

/-- BUILD completes in every state: STAGE holds the 18 bytes of R101, the last one the sum of the others mod 256 (R102),
STAGE_VALID is 1, and nothing else changes (R100). -/
def Obligations.BuildLatchesPayload : Prop :=
  ∀ (p m t f v : Byte) (s : State),
    ∃ u, exec (.build p m t f v) s = .next u ∧
      u.stage.bytes = [0x23#8, 0xCB#8, 0x26#8, 0x01#8, 0x00#8, p, m, t, f, v, 0x00#8, 0x00#8, 0x00#8, 0x00#8,
        0x00#8, 0x00#8, 0x00#8,
        BitVec.ofNat 8 ((0x23 + 0xCB + 0x26 + 0x01 + p.toNat + m.toNat + t.toNat + f.toNat + v.toNat) % 256)] ∧
      u.stageValid = true ∧
      (∀ a, u.payload.read a = s.payload.read a) ∧ u.pos = s.pos ∧ u.t = s.t ∧ u.line = s.line ∧ u.err = s.err ∧
      u.failPulse = s.failPulse ∧ u.hostFault = s.hostFault ∧ u.ports = s.ports ∧
      u.events = s.events ++ [.cmd (.build p m t f v)]

/-- With the fixed bytes the checksum is 0x15 plus the five operands, mod 256 (R103). -/
def Obligations.BuildChecksumReduces : Prop :=
  ∀ p m t f v : Byte, (buildPayload p m t f v).read 17 = 0x15#8 + p + m + t + f + v

/-! ### TRANSMIT -/

/-- TRANSMIT with no transmission running, a payload staged, the line ready and `Now` answering `t0`, whatever the
outcome of the last transmission, starts at the first pulse (R120, R196). That the command comes before its `Now` in the
trace is log 19. -/
def Obligations.TransmitStartsFirstPulse : Prop :=
  ∀ (s : State) (t0 : AbsTime),
    s.busy = false → s.stageValid = true → s.ports.lineReady = true → s.nowAnswer = some t0 →
      ∃ u, exec .transmit s = .next u ∧
        u.pos = { phase := .hdrMark, sub := .emit, frame := 0, byteIdx := 0, bitIdx := 0 } ∧
        (∀ a, u.payload.read a = s.stage.read a) ∧ u.t = t0 ∧ u.err = .none ∧ u.failPulse = none ∧
        (∀ a, u.stage.read a = s.stage.read a) ∧ u.stageValid = s.stageValid ∧ u.line = s.line ∧
        u.hostFault = s.hostFault ∧ InputsUnchanged s u ∧
        u.ports.nowAnswers = s.ports.nowAnswers.tail ∧ u.ports.lineAnswers = s.ports.lineAnswers ∧
        u.ports.sleepAnswers = s.ports.sleepAnswers ∧
        u.events = s.events ++ [.cmd .transmit, .now (some t0)]

/-- TRANSMIT accepted with LINE_READY = 0: DEVICE_UNAVAILABLE, PAYLOAD latched, no request made (R191, R194, R195). -/
def Obligations.TransmitWithoutLine : Prop :=
  ∀ s : State,
    s.busy = false → s.stageValid = true → s.ports.lineReady = false →
      ∃ u, exec .transmit s = .next u ∧
        u.pos = { phase := .failed, sub := .emit, frame := 0, byteIdx := 0, bitIdx := 0 } ∧
        u.err = .deviceUnavailable ∧ u.failPulse = none ∧
        (∀ a, u.payload.read a = s.stage.read a) ∧ u.t = s.t ∧ u.line = s.line ∧
        (∀ a, u.stage.read a = s.stage.read a) ∧ u.stageValid = s.stageValid ∧ u.hostFault = s.hostFault ∧
        u.ports = s.ports ∧ u.events = s.events ++ [.cmd .transmit]

/-- TRANSMIT accepted with `Now` answering `err`: CLOCK_UNAVAILABLE and no pulse sent (R120, R193, R194, R195). That the
command comes before its `Now` in the trace is log 19. -/
def Obligations.TransmitWithoutClock : Prop :=
  ∀ s : State,
    s.busy = false → s.stageValid = true → s.ports.lineReady = true → s.nowAnswer = none →
      ∃ u, exec .transmit s = .next u ∧
        u.pos = { phase := .failed, sub := .emit, frame := 0, byteIdx := 0, bitIdx := 0 } ∧
        u.err = .clockUnavailable ∧ u.failPulse = none ∧
        (∀ a, u.payload.read a = s.stage.read a) ∧ u.t = s.t ∧ u.line = s.line ∧
        (∀ a, u.stage.read a = s.stage.read a) ∧ u.stageValid = s.stageValid ∧ u.hostFault = s.hostFault ∧
        InputsUnchanged s u ∧ u.ports.nowAnswers = s.ports.nowAnswers.tail ∧
        u.ports.lineAnswers = s.ports.lineAnswers ∧ u.ports.sleepAnswers = s.ports.sleepAnswers ∧
        u.events = s.events ++ [.cmd .transmit, .now none]

/-! ### Host faults -/

/-- A reserved opcode, a TRANSMIT while busy and a TRANSMIT with no payload each set their bit of HOSTFAULT and have no
other effect; the busy check comes before the payload check (R197, R198). -/
def Obligations.HostFaultsSetOneBit : Prop :=
  ∀ s : State,
    (∀ op, ∃ u, exec (.reserved op) s = .next u ∧ u.hostFault = s.hostFault ||| 0b001#3 ∧ OnlyHostfaultDiffers s u ∧
      u.events = s.events ++ [.cmd (.reserved op)]) ∧
    (s.busy = true → ∃ u, exec .transmit s = .next u ∧ u.hostFault = s.hostFault ||| 0b010#3 ∧
      OnlyHostfaultDiffers s u ∧ u.events = s.events ++ [.cmd .transmit]) ∧
    (s.busy = false → s.stageValid = false → ∃ u, exec .transmit s = .next u ∧
      u.hostFault = s.hostFault ||| 0b100#3 ∧ OnlyHostfaultDiffers s u ∧ u.events = s.events ++ [.cmd .transmit])

/-- No step but a reset clears a bit of HOSTFAULT (R33). -/
def Obligations.HostFaultBitsSticky : Prop :=
  ∀ s u : State, step s = .next u →
    (s.nextTurn ≠ .reset → ∀ b, s.hostFault.getLsbD b = true → u.hostFault.getLsbD b = true) ∧
    (s.nextTurn = .reset → u.hostFault = 0#3)

/-! ### Pulses -/

/-- HDR_MARK and HDR_SPACE: their EMIT and WAKE halves, each with both answers (R140, R141). -/
def Obligations.HeaderPulses : Prop :=
  ∀ s : State,
    (s.pos.phase = .hdrMark →
      (s.pos.sub = .emit → s.lineAnswer = .ok → StartsPulse .hdrMark s .high 3400) ∧
      (s.pos.sub = .emit → s.lineAnswer = .err →
        FailsToSetLevel .hdrMark s .high (if s.pos.frame = 0 then 0 else 292)) ∧
      (∀ late rest, s.pos.sub = .wait → s.ports.sleepAnswers = .ok late :: rest →
        EndsPulse .hdrMark s late { s.pos with phase := .hdrSpace, sub := .emit }) ∧
      (∀ late rest, s.pos.sub = .wait → s.ports.sleepAnswers = .err late :: rest →
        FailsToSleep .hdrMark s late (if s.pos.frame = 0 then 0 else 292))) ∧
    (s.pos.phase = .hdrSpace →
      (s.pos.sub = .emit → s.lineAnswer = .ok → StartsPulse .hdrSpace s .low 1750) ∧
      (s.pos.sub = .emit → s.lineAnswer = .err →
        FailsToSetLevel .hdrSpace s .low (if s.pos.frame = 0 then 1 else 293)) ∧
      (∀ late rest, s.pos.sub = .wait → s.ports.sleepAnswers = .ok late :: rest →
        EndsPulse .hdrSpace s late { s.pos with phase := .bitMark, sub := .emit, byteIdx := 0, bitIdx := 0 }) ∧
      (∀ late rest, s.pos.sub = .wait → s.ports.sleepAnswers = .err late :: rest →
        FailsToSleep .hdrSpace s late (if s.pos.frame = 0 then 1 else 293)))

/-- BIT_MARK: the mark that starts every bit, 340 µs whatever the bit (R142). -/
def Obligations.BitMarkPulse : Prop :=
  ∀ s : State, s.pos.phase = .bitMark →
    ∃ p : Fin 582,
      p.val = (if s.pos.frame = 0 then 0 else 292) + 2 + 2 * (8 * s.pos.byteIdx.val + s.pos.bitIdx.val) ∧
      (s.pos.sub = .emit → s.lineAnswer = .ok → StartsPulse .bitMark s .high 340) ∧
      (s.pos.sub = .emit → s.lineAnswer = .err → FailsToSetLevel .bitMark s .high p) ∧
      (∀ late rest, s.pos.sub = .wait → s.ports.sleepAnswers = .ok late :: rest →
        EndsPulse .bitMark s late { s.pos with phase := .bitSpace, sub := .emit }) ∧
      (∀ late rest, s.pos.sub = .wait → s.ports.sleepAnswers = .err late :: rest → FailsToSleep .bitMark s late p)

/-- ZERO_SPACE and ONE_SPACE: the space of a bit, 420 µs or 1300 µs as the bit of PAYLOAD says, and where the sequencer
goes after it: the next bit, the next byte, the repeat gap, or the end (R143, R144, R124). -/
def Obligations.BitSpacePulses : Prop :=
  ∀ s : State, s.pos.phase = .bitSpace →
    ∃ (p : Fin 582) (q : Pos),
      p.val = (if s.pos.frame = 0 then 0 else 292) + 3 + 2 * (8 * s.pos.byteIdx.val + s.pos.bitIdx.val) ∧
      AfterBitSpace s.pos q ∧
      ((s.payload.read s.pos.byteIdx.val).getLsbD s.pos.bitIdx.val = false →
        (s.pos.sub = .emit → s.lineAnswer = .ok → StartsPulse .zeroSpace s .low 420) ∧
        (s.pos.sub = .emit → s.lineAnswer = .err → FailsToSetLevel .zeroSpace s .low p) ∧
        (∀ late rest, s.pos.sub = .wait → s.ports.sleepAnswers = .ok late :: rest → EndsPulse .zeroSpace s late q) ∧
        (∀ late rest, s.pos.sub = .wait → s.ports.sleepAnswers = .err late :: rest → FailsToSleep .zeroSpace s late p)) ∧
      ((s.payload.read s.pos.byteIdx.val).getLsbD s.pos.bitIdx.val = true →
        (s.pos.sub = .emit → s.lineAnswer = .ok → StartsPulse .oneSpace s .low 1300) ∧
        (s.pos.sub = .emit → s.lineAnswer = .err → FailsToSetLevel .oneSpace s .low p) ∧
        (∀ late rest, s.pos.sub = .wait → s.ports.sleepAnswers = .ok late :: rest → EndsPulse .oneSpace s late q) ∧
        (∀ late rest, s.pos.sub = .wait → s.ports.sleepAnswers = .err late :: rest → FailsToSleep .oneSpace s late p))

/-- RPT_MARK and RPT_SPACE: the two pulses of the repeat gap; the second leads to the header of frame 1 (R145, R146). -/
def Obligations.RepeatGapPulses : Prop :=
  ∀ s : State,
    (s.pos.phase = .rptMark →
      (s.pos.sub = .emit → s.lineAnswer = .ok → StartsPulse .rptMark s .high 440) ∧
      (s.pos.sub = .emit → s.lineAnswer = .err → FailsToSetLevel .rptMark s .high 290) ∧
      (∀ late rest, s.pos.sub = .wait → s.ports.sleepAnswers = .ok late :: rest →
        EndsPulse .rptMark s late { phase := .rptSpace, sub := .emit, frame := 0, byteIdx := 17, bitIdx := 7 }) ∧
      (∀ late rest, s.pos.sub = .wait → s.ports.sleepAnswers = .err late :: rest → FailsToSleep .rptMark s late 290)) ∧
    (s.pos.phase = .rptSpace →
      (s.pos.sub = .emit → s.lineAnswer = .ok → StartsPulse .rptSpace s .low 17100) ∧
      (s.pos.sub = .emit → s.lineAnswer = .err → FailsToSetLevel .rptSpace s .low 291) ∧
      (∀ late rest, s.pos.sub = .wait → s.ports.sleepAnswers = .ok late :: rest →
        EndsPulse .rptSpace s late { phase := .hdrMark, sub := .emit, frame := 1, byteIdx := 17, bitIdx := 7 }) ∧
      (∀ late rest, s.pos.sub = .wait → s.ports.sleepAnswers = .err late :: rest → FailsToSleep .rptSpace s late 291))

/-- The model's choice (log 9): a pulse kind run away from a pulse of that kind, where neither of its halves is enabled,
changes nothing. -/
def Obligations.PulseAwayFromItsPlace : Prop :=
  ∀ (s : State) (k : PulseKind), s.pos.kind s.payload ≠ some k → exec k.instr s = .next s

/-- The seven pulse kinds by code, with level and duration, and code 7, which is none of them and which no state's
sequencer produces (R73, R123). -/
def Obligations.PulseKindTable : Prop :=
  ([.hdrMark, .hdrSpace, .bitMark, .zeroSpace, .oneSpace, .rptMark, .rptSpace].map
      fun k : PulseKind => (k.code.toNat, decode (.pulse k.code) == .ok k.instr, levelOf k, durationOf k)) =
    [(0, true, .high, 3400), (1, true, .low, 1750), (2, true, .high, 340), (3, true, .low, 420), (4, true, .low, 1300),
      (5, true, .high, 440), (6, true, .low, 17100)] ∧
  (∀ k : PulseKind, decode (.pulse 7#3) ≠ .ok k.instr) ∧
  ∀ s : State, s.fetchPulse ≠ some .unusedPulseKind

/-- The instruction of code 7, to which R73 gives no effect, stops by name in every state (log 10). -/
def Obligations.UnusedKindStops : Prop :=
  ∀ s : State, exec .unusedPulseKind s = .fault .unusedPulseKind

/-! ### STATUS and time -/

/-- Every bit of STATUS is hardwired to the state named in its layout (R35, with the codes of R21, R22, R31, R32). -/
def Obligations.StatusWordLayout : Prop :=
  ∀ s : State,
    (s.status.extractLsb' 0 4).toNat = (match s.pos.phase with
      | .idle => 0 | .hdrMark => 1 | .hdrSpace => 2 | .bitMark => 3 | .bitSpace => 4 | .rptMark => 5
      | .rptSpace => 6 | .done => 7 | .failed => 8) ∧
    s.status.getLsbD 4 = decide (s.pos.sub = .wait) ∧
    s.status.getLsbD 5 = decide (s.pos.frame = 1) ∧
    (s.status.extractLsb' 6 5).toNat = s.pos.byteIdx.val ∧
    (s.status.extractLsb' 11 3).toNat = s.pos.bitIdx.val ∧
    (s.status.extractLsb' 14 2).toNat = (match s.err with
      | .none => 0 | .deviceUnavailable => 1 | .lineActuationFailure => 2 | .clockUnavailable => 3) ∧
    (s.status.extractLsb' 16 10).toNat = (match s.failPulse with
      | none => 0x3FF | some p => p.val) ∧
    s.status.extractLsb' 26 3 = s.hostFault ∧
    s.status.getLsbD 29 = s.stageValid ∧
    s.status.getLsbD 30 = s.busy ∧
    s.status.getLsbD 31 = false

/-- `AddUs` is its formula and adds d microseconds exactly; times are ordered lexicographically as their nanosecond
values are, and equal exactly when those are (R14). -/
def Obligations.AddUsExact : Prop :=
  (∀ (t : AbsTime) (d : Nat),
    (addUs t d).sec = t.sec + (t.nsec.val + d * 1000) / 1000000000 ∧
    (addUs t d).nsec.val = (t.nsec.val + d * 1000) % 1000000000 ∧ (addUs t d).ns = t.ns + d * 1000) ∧
  (∀ t u : AbsTime, t.ns < u.ns ↔ t.sec < u.sec ∨ (t.sec = u.sec ∧ t.nsec.val < u.nsec.val)) ∧
  (∀ t u : AbsTime, t = u ↔ t.ns = u.ns)

/-! ### The walk -/

/-- The position after a pulse is the pulse of the next index, and after pulse 581 it is DONE (R124, R130). -/
def Obligations.NextPulseIsNextIndex : Prop :=
  ∀ (p : Pos) (n : Fin 582), p.Legal → p.pidx = some n →
    (n.val = 581 → p.next = { p with phase := .done, frame := 1, byteIdx := 17, bitIdx := 7 }) ∧
    (∀ n' : Fin 582, n'.val = n.val + 1 → p.next.pidx = some n')

/-- A pulse index identifies a position: two legal positions of one pulse and one half are the same (R130). -/
def Obligations.PulseIndexIsUnique : Prop :=
  ∀ (p q : Pos) (n : Fin 582), p.Legal → q.Legal → p.pidx = some n → q.pidx = some n → p.sub = q.sub → p = q

/-- The schedule of a payload, pulse by pulse: two headers, every bit as a mark and a space in wire order, bit 0 first,
the repeat gap, and nothing after it: 582 pulses (R53, R72, R74, R75, R131). -/
def Obligations.ScheduleListsEveryPulse : Prop :=
  ∀ m : Memory,
    (schedule m).length = 582 ∧
    (∀ base, base = 0 ∨ base = 292 →
      (schedule m)[base]? = some (.high, 3400) ∧ (schedule m)[base + 1]? = some (.low, 1750) ∧
      ∀ (b : Fin 18) (i : Fin 8),
        (schedule m)[base + 2 + 2 * (8 * b.val + i.val)]? = some (.high, 340) ∧
        (schedule m)[base + 3 + 2 * (8 * b.val + i.val)]? =
          some (.low, if (m.read b.val).getLsbD i.val then 1300 else 420)) ∧
    (schedule m)[290]? = some (.high, 440) ∧ (schedule m)[291]? = some (.low, 17100)

/-- Levels strictly alternate: 1 for even p and 0 for odd p, so that each pulse after the first changes the line (R137). -/
def Obligations.ScheduleLevelsAlternate : Prop :=
  ∀ (m : Memory) (p : Nat), p < 582 →
    pulseLevel m p = (if p % 2 = 0 then .high else .low) ∧
    (p + 1 < 582 → pulseLevel m (p + 1) ≠ pulseLevel m p)

/-- The schedule is the 582 pairs of the grammar's pulse kinds, and the level and duration of the kind at a position are
its pair at the position's pulse index (R129). -/
def Obligations.KindFollowsSchedule : Prop :=
  ∀ m : Memory,
    schedule m = (transmission m).map (fun k => (levelOf k, durationOf k)) ∧ (schedule m).length = 582 ∧
    ∀ (p : Pos) (k : PulseKind) (n : Fin 582), p.Legal → p.kind m = some k → p.pidx = some n →
      (schedule m)[n.val]? = some (levelOf k, durationOf k)

/-- The nominal length of a transmission is 246720 + 1760 k µs for k one bits, one frame 114590 + 880 k (R136). -/
def Obligations.NominalLength : Prop :=
  ∀ m : Memory,
    offsetAfter m 582 = 2 * (Config.protocol.hdrMark + Config.protocol.hdrSpace) + 288 * Config.protocol.bitMark
      + (288 - 2 * onesOf m) * Config.protocol.zeroSpace + 2 * onesOf m * Config.protocol.oneSpace
      + Config.protocol.rptMark + Config.protocol.rptSpace ∧
    offsetAfter m 582 = 246720 + 1760 * onesOf m ∧ offsetAfter m 290 = 114590 + 880 * onesOf m ∧
    offsetAfter m 292 = offsetAfter m 290 + 17540 ∧ onesOf m ≤ 144

/-- The deadlines strictly increase, by exactly each pulse's nominal duration, from `t0` on (R132). -/
def Obligations.DeadlinesStrictlyIncrease : Prop :=
  ∀ (t0 : AbsTime) (m : Memory) (p : Nat),
    (p < 582 → 0 < pulseDuration m p) ∧
    (deadline t0 m 0).ns = t0.ns + 1000 * pulseDuration m 0 ∧
    (deadline t0 m (p + 1)).ns = (deadline t0 m p).ns + 1000 * pulseDuration m (p + 1)

/-- On the trace of a transmission the line changes to level_0 when `Now` is answered and to level_(p+1) when pulse p's
sleep is answered (R133); latencies are zero (log 18). Every `SetLevel` of this trace is answered `ok`: what one answered
`err` does to the line is left open (log 24) and plays no part here. -/
def Obligations.LevelChangeTimes : Prop :=
  ∀ (t0 : AbsTime) (m : Memory) (lates : List Nat) (p : Nat), p < lates.length →
    (levelChanges none (.now (some t0) :: pulseEvents t0 m 0 lates))[p]? =
      some (if p = 0 then t0 else addNs (deadline t0 m (p - 1)) (lates.getD (p - 1) 0), pulseLevel m p)

/-! ### Invariants -/

/-- The invariant holds after reset. -/
def Obligations.ResetHasInv : Prop := State.reset.Inv

/-- Every step keeps the invariant (R22 to R25, R31, R32, R105, R106, R135, R137, and the stores' canonical form). -/
def Obligations.StepKeepsInv : Prop :=
  ∀ s u : State, s.Inv → step s = .next u → u.Inv

/-- A transmission begins on its schedule: `T` is `t0` (R120). -/
def Obligations.TransmitBeginsOnSchedule : Prop :=
  ∀ (s u : State) (t0 : AbsTime),
    s.busy = false → s.stageValid = true → s.ports.lineReady = true → s.nowAnswer = some t0 →
      exec .transmit s = .next u → u.OnSchedule t0

/-- While a transmission runs, every step keeps `T` on the schedule of its payload from `t0`, whatever commands, late
wakes, errors and resets come (R127, R132, R134). -/
def Obligations.StepKeepsSchedule : Prop :=
  ∀ (s u : State) (t0 : AbsTime), s.pos.Legal → s.busy = true → s.OnSchedule t0 → step s = .next u → u.OnSchedule t0

/-! ### Whole transmissions -/

/-- An accepted TRANSMIT whose 582 `SetLevel` and 582 `SleepUntil` are answered `ok`, the wakes however late, runs in
1164 engine steps to DONE: the trace is that of R179, the deadlines those of the schedule, the line low, `T` the last
deadline (R131, R132, R134, R135). The model's forms it rests on: an empty list of turns is the engine's turn (log 1), and
the command comes before its `Now` in the trace (log 19). -/
def Obligations.TransmissionRunsToDone : Prop :=
  ∀ (s u : State) (t0 : AbsTime) (lates : List Nat) (la : List PortAnswer) (sa : List SleepAnswer),
    s.busy = false → s.stageValid = true → s.ports.lineReady = true → s.nowAnswer = some t0 →
    s.ports.turns = [] → lates.length = 582 →
    s.ports.lineAnswers = List.replicate 582 .ok ++ la → s.ports.sleepAnswers = lates.map .ok ++ sa →
    exec .transmit s = .next u →
      ∃ v : State, Sys2Proof.core.run 1164 u = .next v ∧
        v.pos = { phase := .done, sub := .emit, frame := 1, byteIdx := 17, bitIdx := 7 } ∧
        v.line = .driven .low ∧ v.t = deadline t0 s.stage 581 ∧ v.err = .none ∧ v.failPulse = none ∧
        v.hostFault = s.hostFault ∧ v.ports.lineAnswers = la ∧ v.ports.sleepAnswers = sa ∧
        v.events = s.events ++ [.cmd .transmit, .now (some t0)] ++ pulseEvents t0 s.stage 0 lates

/-- A `SetLevel` that fails at pulse `p` stops the transmission there: FAILED with FAIL_PULSE = p, every earlier pulse
complete, no sleep for pulse `p`, and however many engine steps follow, no further request (R192, R194, R195, R199, R201).
The model's forms it rests on: an empty list of turns is the engine's turn (log 1), and the command comes before its `Now`
in the trace (log 19). -/
def Obligations.FailedSetLevelStopsTransmission : Prop :=
  ∀ (s u : State) (t0 : AbsTime) (p : Fin 582) (lates : List Nat) (la : List PortAnswer) (sa : List SleepAnswer),
    s.busy = false → s.stageValid = true → s.ports.lineReady = true → s.nowAnswer = some t0 →
    s.ports.turns = [] → lates.length = p.val →
    s.ports.lineAnswers = List.replicate p.val .ok ++ .err :: la → s.ports.sleepAnswers = lates.map .ok ++ sa →
    exec .transmit s = .next u →
      ∀ more, ∃ v : State, Sys2Proof.core.run (2 * p.val + 1 + more) u = .next v ∧
        v.pos.phase = .failed ∧ v.pos.sub = .emit ∧ v.err = .lineActuationFailure ∧ v.failPulse = some p ∧
        v.line = .unknown ∧ v.t = deadlineAfter t0 s.stage p.val ∧ v.ports.sleepAnswers = sa ∧
        v.ports.lineAnswers = la ∧
        v.events = s.events ++ [.cmd .transmit, .now (some t0)] ++ pulseEvents t0 s.stage 0 lates ++
          [.setLevel (pulseLevel s.stage p.val) .err]

/-- A sleep that fails at pulse `p` stops the transmission there: FAILED with FAIL_PULSE = p, every earlier pulse
complete, the line left at pulse `p`'s level, the answer at or after the deadline, and however many engine steps follow, no
further request (R170, R193, R194, R195, R199, R201). The model's forms it rests on: an empty list of turns is the engine's
turn (log 1), and the command comes before its `Now` in the trace (log 19). -/
def Obligations.FailedSleepStopsTransmission : Prop :=
  ∀ (s u : State) (t0 : AbsTime) (late : Nat) (p : Fin 582) (lates : List Nat) (la : List PortAnswer) (sa : List SleepAnswer),
    s.busy = false → s.stageValid = true → s.ports.lineReady = true → s.nowAnswer = some t0 →
    s.ports.turns = [] → lates.length = p.val →
    s.ports.lineAnswers = List.replicate (p.val + 1) .ok ++ la → s.ports.sleepAnswers = lates.map .ok ++ .err late :: sa →
    exec .transmit s = .next u →
      ∀ more, ∃ v : State, Sys2Proof.core.run (2 * p.val + 2 + more) u = .next v ∧
        v.pos.phase = .failed ∧ v.pos.sub = .emit ∧ v.err = .clockUnavailable ∧ v.failPulse = some p ∧
        v.line = .driven (pulseLevel s.stage p.val) ∧ v.t = deadline t0 s.stage p.val ∧ v.ports.sleepAnswers = sa ∧
        v.ports.lineAnswers = la ∧
        v.events = s.events ++ [.cmd .transmit, .now (some t0)] ++ pulseEvents t0 s.stage 0 lates ++
          [.setLevel (pulseLevel s.stage p.val) .ok, .sleepUntil (deadline t0 s.stage p.val),
            .wake (addNs (deadline t0 s.stage p.val) late) .err]

/-! ### What may change what -/

/-- PAYLOAD is immutable while a transmission runs: no step but a reset changes a byte of it; its only writers are an
accepted TRANSMIT, which copies STAGE and is not accepted while busy, and a reset, which R40 leaves unspecified and which
writes the model's reset value (log 5); and BUILD leaves it and the running transmission as they are (R57). -/
def Obligations.PayloadImmutableWhileBusy : Prop :=
  ∀ s u : State,
    (step s = .next u → s.busy = true → s.nextTurn ≠ .reset → ∀ a, u.payload.read a = s.payload.read a) ∧
    (step s = .next u → (∃ a, u.payload.read a ≠ s.payload.read a) → s.nextTurn = .reset ∨
      (s.nextTurn = .command ∧ (∃ rest, decodeCommand s.ports.cmd = .ok (.transmit, rest)) ∧ s.busy = false ∧
        s.stageValid = true ∧ ∀ a, u.payload.read a = s.stage.read a)) ∧
    (∀ p m t f v, exec (.build p m t f v) s = .next u →
      (∀ a, u.payload.read a = s.payload.read a) ∧ u.pos = s.pos ∧ u.t = s.t ∧ u.line = s.line)

/-- No command and no input affects a running transmission: a step that is neither the engine's nor a reset changes
nothing the engine reads, and requests nothing of a port (R138, R174). -/
def Obligations.CommandsDoNotDisturbTransmission : Prop :=
  ∀ s u : State, s.busy = true → s.nextTurn ≠ .engine → s.nextTurn ≠ .reset → step s = .next u →
    u.pos = s.pos ∧ (∀ a, u.payload.read a = s.payload.read a) ∧ u.t = s.t ∧ u.line = s.line ∧ u.err = s.err ∧
      u.failPulse = s.failPulse ∧ u.ports.lineAnswers = s.ports.lineAnswers ∧
      u.ports.nowAnswers = s.ports.nowAnswers ∧ u.ports.sleepAnswers = s.ports.sleepAnswers ∧ u.draws = s.draws ∧
      (u.events = s.events ∨ ∃ c, u.events = s.events ++ [.cmd c])

/-- What the host holds does not reach the line: two states that agree on what the engine reads, and differ in any way
in STAGE, STAGE_VALID, HOSTFAULT, the bytes on CMD, LINE_READY and the trace, make the same engine step, with the same
port events (R57, R138, R139). -/
def Obligations.EngineIgnoresHostRegisters : Prop :=
  ∀ (s s' u : State), s.nextTurn = .engine → s'.nextTurn = .engine →
    s'.pos = s.pos → (∀ a, s'.payload.read a = s.payload.read a) → s'.t = s.t → s'.line = s.line →
    s'.err = s.err → s'.failPulse = s.failPulse → s'.draws = s.draws →
    s'.ports.lineAnswers = s.ports.lineAnswers → s'.ports.sleepAnswers = s.ports.sleepAnswers →
    step s = .next u →
      ∃ u', step s' = .next u' ∧
        u'.pos = u.pos ∧ (∀ a, u'.payload.read a = u.payload.read a) ∧ u'.t = u.t ∧ u'.line = u.line ∧
        u'.err = u.err ∧ u'.failPulse = u.failPulse ∧ u'.draws = u.draws ∧
        u'.ports.lineAnswers = u.ports.lineAnswers ∧ u'.ports.sleepAnswers = u.ports.sleepAnswers ∧
        ∃ new, u.events = s.events ++ new ∧ u'.events = s'.events ++ new

/-- A running transmission ends only by a reset, at the wake of pulse 581, in DONE, or by an error, in FAILED (R135,
R138). -/
def Obligations.TransmissionEndsInDoneOrFailed : Prop :=
  ∀ (s u : State) (t0 : AbsTime), s.Inv → s.OnSchedule t0 → s.busy = true → step s = .next u → u.busy = false →
    s.nextTurn = .reset ∨
    (s.pos.pidx = some 581 ∧ s.pos.sub = .wait ∧
      u.pos = { phase := .done, sub := .emit, frame := 1, byteIdx := 17, bitIdx := 7 } ∧ u.line = .driven .low ∧
      u.t = deadline t0 s.payload 581 ∧ u.err = .none) ∨
    (u.pos.phase = .failed ∧ u.err ≠ .none ∧ u.failPulse = s.pos.pidx)

/-- From IDLE, DONE and FAILED only an accepted TRANSMIT or a reset changes the position (R26, R196, R206). -/
def Obligations.OnlyTransmitLeavesRest : Prop :=
  ∀ s u : State, s.busy = false → step s = .next u → u.pos ≠ s.pos →
    s.nextTurn = .reset ∨
    (s.nextTurn = .command ∧ (∃ rest, decodeCommand s.ports.cmd = .ok (.transmit, rest)) ∧ s.stageValid = true)

/-- STAGE and STAGE_VALID are written by BUILD, or cleared by a reset, and by nothing else (R28). That a reset writes STAGE
is the model's reset value (log 5). -/
def Obligations.StageWriters : Prop :=
  ∀ s u : State, step s = .next u → ((∃ a, u.stage.read a ≠ s.stage.read a) ∨ u.stageValid ≠ s.stageValid) →
    s.nextTurn = .reset ∨
    (s.nextTurn = .command ∧ (∃ p m t f v rest, decodeCommand s.ports.cmd = .ok (.build p m t f v, rest)) ∧
      u.stageValid = true)

/-- `T` is written by an accepted TRANSMIT, with the clock's answer, and by an EMIT step, with the pulse's duration
added, and by nothing else but a reset (R127). That a reset writes `T` is the model's reset value (log 5). -/
def Obligations.DeadlineWriters : Prop :=
  ∀ s u : State, step s = .next u → u.t ≠ s.t →
    s.nextTurn = .reset ∨
    (s.nextTurn = .command ∧ (∃ rest, decodeCommand s.ports.cmd = .ok (.transmit, rest)) ∧ s.busy = false ∧
      s.stageValid = true ∧ s.ports.lineReady = true ∧ s.nowAnswer = some u.t) ∨
    (s.nextTurn = .engine ∧ s.pos.sub = .emit ∧ s.lineAnswer = .ok ∧
      ∃ k, s.pos.kind s.payload = some k ∧ u.t = addUs s.t (durationOf k))

/-- LINE is written by an EMIT step, to the pulse's level or to UNKNOWN as `SetLevel` answers, and by nothing else but a
reset, which leaves it UNKNOWN (R30, R195, R222). -/
def Obligations.LineWriters : Prop :=
  ∀ s u : State, step s = .next u → u.line ≠ s.line →
    (s.nextTurn = .reset ∧ u.line = .unknown) ∨
    (s.nextTurn = .engine ∧ s.pos.sub = .emit ∧ ∃ k, s.pos.kind s.payload = some k ∧
      ((s.lineAnswer = .ok ∧ u.line = .driven (levelOf k)) ∨ (s.lineAnswer = .err ∧ u.line = .unknown)))

/-- While LINE stays UNKNOWN its actual level stays the same, until a reset or another failed `SetLevel` (R195; log 6
is the model's form of the draw). It holds whatever levels the draws are. -/
def Obligations.UnknownLineKeepsItsLevel : Prop :=
  ∀ s u : State, step s = .next u → s.line = .unknown → u.line = .unknown →
    s.nextTurn = .reset ∨
      (s.nextTurn = .engine ∧ s.pos.sub = .emit ∧ s.lineAnswer = .err ∧ ∃ k, s.pos.kind s.payload = some k) ∨
      u.lineLevel = s.lineLevel

/-! ### The trace -/

/-- What one step adds to the trace, each event with the STATUS after the step (R58, R179; log 14): nothing, a command, a
TRANSMIT with its `Now`, the command first (log 19), a pulse's two requests, a failed `SetLevel`, or the answer of the
outstanding sleep, not before the deadline (R170). -/
def Obligations.StepEvents : Prop :=
  ∀ s u : State, step s = .next u →
    ∃ new : List PortEvent, u.trace = (new.map fun e => { event := e, status := u.status }).reverse ++ s.trace ∧
      (new = [] ∨ (∃ c, new = [.cmd c]) ∨ (∃ a, new = [.cmd .transmit, .now a]) ∨
        (∃ k, s.pos.kind s.payload = some k ∧ s.pos.sub = .emit ∧
          (new = [.setLevel (levelOf k) .ok, .sleepUntil u.t] ∨ new = [.setLevel (levelOf k) .err])) ∨
        (s.busy = true ∧ s.pos.sub = .wait ∧
          ∃ w answer, s.t.ns ≤ w.ns ∧ new = [.wake w answer]))

/-- The clock is read by an accepted TRANSMIT, once, and by no other step (R127, R172). That the command comes before its
`Now` in the trace is log 19. -/
def Obligations.NowOnlyAtTransmit : Prop :=
  ∀ s u : State, step s = .next u →
    (∀ a, u.events.count (.now a) = s.events.count (.now a)) ∨
    (s.nextTurn = .command ∧ s.busy = false ∧ s.stageValid = true ∧ s.ports.lineReady = true ∧
      u.events = s.events ++ [.cmd .transmit, .now s.nowAnswer])

/-! ### Text -/

/-- The text commands and pseudo-commands as bytes (R81, R82): BUILD and TRANSMIT, SEND as BUILD then TRANSMIT, WAITDONE
as no byte, and a reserved opcode as its one byte. -/
def Obligations.HostTextExpands : Prop :=
  (∀ p m t f v : Byte,
    (AsmLine.send p m t f v).expand.flatMap commandBytes = [0x01#8, p, m, t, f, v, 0x02#8] ∧
    (AsmLine.command (.build p m t f v)).expand.flatMap commandBytes = [0x01#8, p, m, t, f, v]) ∧
  (AsmLine.command .transmit).expand.flatMap commandBytes = [0x02#8] ∧
  AsmLine.waitDone.expand.flatMap commandBytes = [] ∧
  ∀ op : Byte, (AsmLine.command (.reserved op)).expand.flatMap commandBytes = [op]

/-! ### Inputs -/

/-- A change of LINE_READY sets that input, takes its turn and changes nothing else, whether or not a transmission runs
(R174). That the change is a step of its own is the model's form of the input (logs 1, 16). -/
def Obligations.LineReadyTurn : Prop :=
  ∀ (s : State) (b : Bool), s.nextTurn = .lineReady b →
    ∃ u, step s = .next u ∧ u.ports.lineReady = b ∧ u.ports.turns = s.ports.turns.tail ∧
      u.ports.cmd = s.ports.cmd ∧ u.ports.lineAnswers = s.ports.lineAnswers ∧
      u.ports.nowAnswers = s.ports.nowAnswers ∧ u.ports.sleepAnswers = s.ports.sleepAnswers ∧
      u.pos = s.pos ∧ StoresUnchanged s u ∧ u.stageValid = s.stageValid ∧ u.t = s.t ∧ u.line = s.line ∧
      u.err = s.err ∧ u.failPulse = s.failPulse ∧ u.hostFault = s.hostFault ∧ u.status = s.status ∧
      u.lineLevel = s.lineLevel ∧ u.events = s.events

/-! ### The assembler -/

/-- The assembler reads a line of each form of R81 and R82: every operand written in decimal or in `0x` hexadecimal,
`.byte` of every reserved opcode and of neither assigned one, and a program with BUILD, TRANSMIT, SEND, WAITDONE and a
comment. What R81 leaves open of the text is log 23. -/
def Obligations.AssemblerReadsText : Prop :=
  (∀ v : Byte, parseByte (Nat.toDigits 10 v.toNat) = some v ∧
    parseByte ['0', 'x', Nat.digitChar (v.toNat / 16), Nat.digitChar (v.toNat % 16)] = some v) ∧
  (∀ op : Byte,
    parseLine ['.', 'b', 'y', 't', 'e', ' ', '0', 'x', Nat.digitChar (op.toNat / 16), Nat.digitChar (op.toNat % 16)] =
      if op = 0x01#8 ∨ op = 0x02#8 then none else some (.command (.reserved op))) ∧
  assemble "BUILD 0x20, 8, 5, 0x30, 0x63 ; EX\nTRANSMIT\nSEND 1, 2, 3, 4, 255\nWAITDONE\n.byte 0x07".toList =
    some [0x01#8, 0x20#8, 0x08#8, 0x05#8, 0x30#8, 0x63#8, 0x02#8, 0x01#8, 0x01#8, 0x02#8, 0x03#8, 0x04#8, 0xFF#8, 0x02#8,
      0x07#8]
end

