-- ==== Sys2Proof/Laws/Decode.lean ====
section
/-!
SUPPORT. What the decoders answer: pulse codes one by one, and the three shapes of a command (spec/30_encoding.md R73, R76, R80).
-/

namespace Sys2Proof

@[simp] theorem decodePulse_code (k : PulseKind) : decodePulse k.code = k.instr := by cases k <;> rfl

theorem PulseKind.instr_injective {k k' : PulseKind} (h : k.instr = k'.instr) : k = k' := by
  cases k <;> cases k' <;> first | rfl | cases h

/-- What a command read from the front of CMD is: a BUILD with its five operand bytes, a TRANSMIT, or a reserved opcode
by itself (R76, R79, R80). -/
theorem decodeCommand_cases {bytes rest : List Byte} {i : Instr} (h : decodeCommand bytes = .ok (i, rest)) :
    (∃ p m t f v, i = .build p m t f v ∧ bytes = 0x01#8 :: p :: m :: t :: f :: v :: rest) ∨
    (i = .transmit ∧ bytes = 0x02#8 :: rest) ∨
    (∃ op, i = .reserved op ∧ op ≠ 0x01#8 ∧ op ≠ 0x02#8 ∧ bytes = op :: rest) := by
  match bytes, h with
  | [], h => simp [decodeCommand] at h
  | op :: bs, h =>
    simp only [decodeCommand] at h
    split at h
    · rename_i hop
      split at h
      · injection h with h; injection h with hi hr; subst hi hr hop
        exact .inl ⟨_, _, _, _, _, rfl, rfl⟩
      · cases h
    · split at h
      · rename_i hop
        injection h with h; injection h with hi hr; subst hi hr hop
        exact .inr (.inl ⟨rfl, rfl⟩)
      · rename_i h1 h2
        injection h with h; injection h with hi hr; subst hi hr
        exact .inr (.inr ⟨op, rfl, h1, h2, rfl⟩)

namespace Machine

/-- The engine fetches the instruction of the kind at the position. -/
theorem State.fetchPulse_eq (s : State) : s.fetchPulse = (s.pos.kind s.payload).map PulseKind.instr := by
  unfold State.fetchPulse
  cases s.pos.kind s.payload <;> simp

theorem State.fetchCommand_eq_some {s : State} {i : Instr} {rest : List Byte} :
    s.fetchCommand = some (i, rest) ↔ decodeCommand s.ports.cmd = .ok (i, rest) := by
  unfold State.fetchCommand
  cases decodeCommand s.ports.cmd <;> simp

end Machine

end Sys2Proof
end

