-- ==== Sys2Proof/Laws/Memory.lean ====
section
/-!
SUPPORT. The payload stores: read after write, and every operation keeps the canonical form (spec/20_memory.md R50, R56).
-/

namespace Sys2Proof.Machine

variable (m : Memory) (a b : Nat) (v : Byte)

/-! ### Reading after writing -/

theorem Memory.read_without_same : (m.without a).read a = 0x00#8 := by
  induction m with
  | nil => rfl
  | cons c m ih =>
    obtain ⟨k, x⟩ := c
    by_cases h : k = a
    · simpa [Memory.without, h] using ih
    · simpa [Memory.without, h, Memory.read] using ih

theorem Memory.read_without_other (h : b ≠ a) : (m.without a).read b = m.read b := by
  induction m with
  | nil => rfl
  | cons c m ih =>
    obtain ⟨k, x⟩ := c
    by_cases hk : k = a
    · have hkb : k ≠ b := fun e => h (e ▸ hk)
      simpa [Memory.without, hk, Memory.read, Ne.symm h] using ih
    · by_cases hkb : k = b
      · simp [Memory.without, Memory.read, hkb, h]
      · simpa [Memory.without, hk, Memory.read, hkb] using ih

theorem Memory.read_insertCell (hm : m.without a = m) :
    (m.insertCell a v).read b = if a = b then v else m.read b := by
  induction m with
  | nil => rfl
  | cons c m ih =>
    obtain ⟨k, x⟩ := c
    have hk : k ≠ a := by
      intro hk
      have := congrArg List.length hm
      have hle := List.length_filter_le (fun c : Host.Cell => c.1 != a) m
      simp [Memory.without, hk] at this
      omega
    have hm' : Memory.without m a = m := by simpa [Memory.without, hk] using hm
    unfold Memory.insertCell
    split
    · simp [Memory.read]
    · simp only [Memory.read, ih hm']
      by_cases hkb : k = b
      · have : a ≠ b := fun e => hk (hkb.trans e.symm)
        simp [hkb, this]
      · simp [hkb]

theorem Memory.without_without : (m.without a).without a = m.without a := by
  simp [Memory.without, List.filter_filter]

/-- A read after a write to the same index gives the byte written; any other index reads as before. -/
theorem Memory.read_write : (m.write a v).read b = if a = b then v else m.read b := by
  unfold Memory.write
  split
  · rename_i hv
    by_cases h : a = b
    · subst h; simp [hv, Memory.read_without_same]
    · simp [h, Memory.read_without_other m a b (Ne.symm h)]
  · rw [Memory.read_insertCell _ _ _ _ (Memory.without_without m a)]
    by_cases h : a = b
    · simp [h]
    · simp [h, Memory.read_without_other m a b (Ne.symm h)]

@[simp] theorem Memory.read_write_same : (m.write a v).read a = v := by simp [Memory.read_write]

theorem Memory.read_write_other (h : a ≠ b) : (m.write a v).read b = m.read b := by simp [Memory.read_write, h]

/-- What `writeBytes` leaves: the bytes at their indices, every other index as before. -/
theorem Memory.read_writeBytes (bs : List Byte) :
    (m.writeBytes a bs).read b = if a ≤ b then bs.getD (b - a) (m.read b) else m.read b := by
  induction bs generalizing m a with
  | nil => simp [Memory.writeBytes]
  | cons x bs ih =>
    simp only [Memory.writeBytes, ih, Memory.read_write]
    by_cases h : a = b
    · subst h; simp
    · by_cases hle : a ≤ b
      · have h1 : a + 1 ≤ b := by omega
        have h2 : b - a = (b - (a + 1)) + 1 := by omega
        simp [h, hle, h1, h2]
      · have h1 : ¬ a + 1 ≤ b := by omega
        simp [h, hle, h1]

/-! ### The canonical form -/

theorem Memory.wfFrom_mono {lo lo' : Nat} (h : lo' ≤ lo) (hw : Memory.wfFrom lo m = true) : Memory.wfFrom lo' m = true := by
  cases m with
  | nil => rfl
  | cons c m =>
    obtain ⟨k, x⟩ := c
    simp only [Memory.wfFrom, Bool.and_eq_true, decide_eq_true_eq] at hw ⊢
    exact ⟨⟨⟨by omega, hw.1.1.2⟩, hw.1.2⟩, hw.2⟩

theorem Memory.wfFrom_without {lo : Nat} (hw : Memory.wfFrom lo m = true) : Memory.wfFrom lo (m.without a) = true := by
  induction m generalizing lo with
  | nil => rfl
  | cons c m ih =>
    obtain ⟨k, x⟩ := c
    simp only [Memory.wfFrom, Bool.and_eq_true, decide_eq_true_eq] at hw
    by_cases hk : k = a
    · have := ih hw.2
      simp only [Memory.without, hk, List.filter_cons, bne_self_eq_false, Bool.false_eq_true, if_false]
      exact Memory.wfFrom_mono _ (by omega) this
    · have := ih hw.2
      simp only [Memory.without, List.filter_cons, bne_iff_ne, ne_eq, hk, not_false_eq_true, if_true, Memory.wfFrom,
        Bool.and_eq_true, decide_eq_true_eq]
      exact ⟨⟨⟨hw.1.1.1, hw.1.1.2⟩, by simpa using hw.1.2⟩, this⟩

theorem Memory.wfFrom_insertCell {lo : Nat} (hlo : lo ≤ a) (ha : a < 18) (hv : v ≠ 0x00#8) (hm : m.without a = m)
    (hw : Memory.wfFrom lo m = true) : Memory.wfFrom lo (m.insertCell a v) = true := by
  induction m generalizing lo with
  | nil => simp [Memory.insertCell, Memory.wfFrom, hlo, ha, hv]
  | cons c m ih =>
    obtain ⟨k, x⟩ := c
    have hk : k ≠ a := by
      intro hk
      have := congrArg List.length hm
      have hle := List.length_filter_le (fun c : Host.Cell => c.1 != a) m
      simp [Memory.without, hk] at this
      omega
    have hm' : Memory.without m a = m := by simpa [Memory.without, hk] using hm
    simp only [Memory.wfFrom, Bool.and_eq_true, decide_eq_true_eq] at hw
    unfold Memory.insertCell
    split
    · simp only [Memory.wfFrom, Bool.and_eq_true, decide_eq_true_eq]
      exact ⟨⟨⟨hlo, ha⟩, by simpa using hv⟩, ⟨⟨by omega, hw.1.1.2⟩, hw.1.2⟩, hw.2⟩
    · simp only [Memory.wfFrom, Bool.and_eq_true, decide_eq_true_eq]
      exact ⟨hw.1, ih (by omega) hm' hw.2⟩

/-- A write inside the store keeps the canonical form. -/
theorem Memory.wf_write (ha : a < 18) (hw : m.wf = true) : (m.write a v).wf = true := by
  unfold Memory.wf Memory.write at *
  split
  · exact Memory.wfFrom_without m a hw
  · rename_i hv
    exact Memory.wfFrom_insertCell _ a v (Nat.zero_le a) ha hv (Memory.without_without m a) (Memory.wfFrom_without m a hw)

theorem Memory.wf_writeBytes (bs : List Byte) (h : a + bs.length ≤ 18) (hw : m.wf = true) :
    (m.writeBytes a bs).wf = true := by
  induction bs generalizing m a with
  | nil => exact hw
  | cons x bs ih =>
    simp only [List.length_cons] at h
    exact ih _ _ (by omega) (Memory.wf_write m a x (by omega) hw)

/-- Every payload of BuildPayload is in canonical form. -/
theorem buildPayload_wf (p md t f x : Byte) : (buildPayload p md t f x).wf = true :=
  Memory.wf_writeBytes [] 0 _ (by simp [payloadBytes, payloadHead, Config.magic]) rfl

/-! ### Equal memories are equal data -/

theorem Memory.read_of_wfFrom {lo : Nat} (hw : Memory.wfFrom lo m = true) (h : a < lo) : m.read a = 0x00#8 := by
  induction m generalizing lo with
  | nil => rfl
  | cons c m ih =>
    obtain ⟨k, x⟩ := c
    simp only [Memory.wfFrom, Bool.and_eq_true, decide_eq_true_eq] at hw
    have hk : k ≠ a := by omega
    simpa [Memory.read, hk] using ih hw.2 (by omega)

/-- Two canonical stores that read the same everywhere are the same list. -/
theorem Memory.eq_of_read_eq {m' : Memory} {lo : Nat} (hw : Memory.wfFrom lo m = true) (hw' : Memory.wfFrom lo m' = true)
    (h : ∀ a, m.read a = m'.read a) : m = m' := by
  induction m generalizing lo m' with
  | nil =>
    cases m' with
    | nil => rfl
    | cons c m' =>
      obtain ⟨k, x⟩ := c
      simp only [Memory.wfFrom, Bool.and_eq_true, bne_iff_ne] at hw'
      exact absurd (by simpa [Memory.read] using (h k).symm) hw'.1.2
  | cons c m ih =>
    obtain ⟨k, x⟩ := c
    cases m' with
    | nil =>
      simp only [Memory.wfFrom, Bool.and_eq_true, bne_iff_ne] at hw
      exact absurd (by simpa [Memory.read] using h k) hw.1.2
    | cons c' m' =>
      obtain ⟨k', x'⟩ := c'
      simp only [Memory.wfFrom, Bool.and_eq_true, bne_iff_ne, decide_eq_true_eq] at hw hw'
      have hkk : k = k' := by
        rcases Nat.lt_trichotomy k k' with hlt | he | hlt
        · have := h k
          rw [Memory.read, if_pos rfl, Memory.read, if_neg (by omega),
            Memory.read_of_wfFrom m' k hw'.2 (by omega)] at this
          exact absurd this hw.1.2
        · exact he
        · have := h k'
          rw [Memory.read, if_neg (by omega), Memory.read_of_wfFrom m k' hw.2 (by omega), Memory.read,
            if_pos rfl] at this
          exact absurd this.symm hw'.1.2
      subst hkk
      have hx : x = x' := by simpa [Memory.read] using h k
      subst hx
      rw [ih hw.2 hw'.2]
      intro a
      by_cases ha : k = a
      · subst ha
        rw [Memory.read_of_wfFrom m k hw.2 (by omega), Memory.read_of_wfFrom m' k hw'.2 (by omega)]
      · simpa [Memory.read, ha] using h a

end Sys2Proof.Machine
end

