-- ==== Sys2Proof/Laws/State.lean ====
section
/-!
SUPPORT. One lemma per field and update of State, so that no later proof unfolds a record update.
-/

namespace Sys2Proof.Machine

variable (s : State)

/-! ### observe: an event is added to the trace -/

@[simp] theorem State.observe_pos (e : PortEvent) : (s.observe e).pos = s.pos := rfl
@[simp] theorem State.observe_payload (e : PortEvent) : (s.observe e).payload = s.payload := rfl
@[simp] theorem State.observe_stage (e : PortEvent) : (s.observe e).stage = s.stage := rfl
@[simp] theorem State.observe_stageValid (e : PortEvent) : (s.observe e).stageValid = s.stageValid := rfl
@[simp] theorem State.observe_t (e : PortEvent) : (s.observe e).t = s.t := rfl
@[simp] theorem State.observe_line (e : PortEvent) : (s.observe e).line = s.line := rfl
@[simp] theorem State.observe_err (e : PortEvent) : (s.observe e).err = s.err := rfl
@[simp] theorem State.observe_failPulse (e : PortEvent) : (s.observe e).failPulse = s.failPulse := rfl
@[simp] theorem State.observe_hostFault (e : PortEvent) : (s.observe e).hostFault = s.hostFault := rfl
@[simp] theorem State.observe_ports (e : PortEvent) : (s.observe e).ports = s.ports := rfl
@[simp] theorem State.observe_draws (e : PortEvent) : (s.observe e).draws = s.draws := rfl
@[simp] theorem State.observe_lineDraw (e : PortEvent) : (s.observe e).lineDraw = s.lineDraw := rfl
@[simp] theorem State.observe_trace (e : PortEvent) : (s.observe e).trace = { event := e, status := s.status } :: s.trace := rfl

/-! ### raiseError: the error entry (R194) -/

@[simp] theorem State.raiseError_pos (e : TxError) (i : Option (Fin 582)) : (s.raiseError e i).pos = { s.pos with phase := .failed, sub := .emit } := rfl
@[simp] theorem State.raiseError_payload (e : TxError) (i : Option (Fin 582)) : (s.raiseError e i).payload = s.payload := rfl
@[simp] theorem State.raiseError_stage (e : TxError) (i : Option (Fin 582)) : (s.raiseError e i).stage = s.stage := rfl
@[simp] theorem State.raiseError_stageValid (e : TxError) (i : Option (Fin 582)) : (s.raiseError e i).stageValid = s.stageValid := rfl
@[simp] theorem State.raiseError_t (e : TxError) (i : Option (Fin 582)) : (s.raiseError e i).t = s.t := rfl
@[simp] theorem State.raiseError_line (e : TxError) (i : Option (Fin 582)) : (s.raiseError e i).line = s.line := rfl
@[simp] theorem State.raiseError_err (e : TxError) (i : Option (Fin 582)) : (s.raiseError e i).err = e := rfl
@[simp] theorem State.raiseError_failPulse (e : TxError) (i : Option (Fin 582)) : (s.raiseError e i).failPulse = i := rfl
@[simp] theorem State.raiseError_hostFault (e : TxError) (i : Option (Fin 582)) : (s.raiseError e i).hostFault = s.hostFault := rfl
@[simp] theorem State.raiseError_ports (e : TxError) (i : Option (Fin 582)) : (s.raiseError e i).ports = s.ports := rfl
@[simp] theorem State.raiseError_draws (e : TxError) (i : Option (Fin 582)) : (s.raiseError e i).draws = s.draws := rfl
@[simp] theorem State.raiseError_lineDraw (e : TxError) (i : Option (Fin 582)) : (s.raiseError e i).lineDraw = s.lineDraw := rfl
@[simp] theorem State.raiseError_trace (e : TxError) (i : Option (Fin 582)) : (s.raiseError e i).trace = s.trace := rfl

/-! ### loseLine: the line's level becomes unknown -/

@[simp] theorem State.loseLine_pos : (s.loseLine).pos = s.pos := rfl
@[simp] theorem State.loseLine_payload : (s.loseLine).payload = s.payload := rfl
@[simp] theorem State.loseLine_stage : (s.loseLine).stage = s.stage := rfl
@[simp] theorem State.loseLine_stageValid : (s.loseLine).stageValid = s.stageValid := rfl
@[simp] theorem State.loseLine_t : (s.loseLine).t = s.t := rfl
@[simp] theorem State.loseLine_line : (s.loseLine).line = .unknown := rfl
@[simp] theorem State.loseLine_err : (s.loseLine).err = s.err := rfl
@[simp] theorem State.loseLine_failPulse : (s.loseLine).failPulse = s.failPulse := rfl
@[simp] theorem State.loseLine_hostFault : (s.loseLine).hostFault = s.hostFault := rfl
@[simp] theorem State.loseLine_ports : (s.loseLine).ports = s.ports := rfl
@[simp] theorem State.loseLine_draws : (s.loseLine).draws = s.draws := rfl
@[simp] theorem State.loseLine_lineDraw : (s.loseLine).lineDraw = s.lineDraw + 1 := rfl
@[simp] theorem State.loseLine_trace : (s.loseLine).trace = s.trace := rfl

/-! ### hostfault: a host fault (R197) -/

@[simp] theorem State.hostfault_pos (b : BitVec 3) : (s.hostfault b).pos = s.pos := rfl
@[simp] theorem State.hostfault_payload (b : BitVec 3) : (s.hostfault b).payload = s.payload := rfl
@[simp] theorem State.hostfault_stage (b : BitVec 3) : (s.hostfault b).stage = s.stage := rfl
@[simp] theorem State.hostfault_stageValid (b : BitVec 3) : (s.hostfault b).stageValid = s.stageValid := rfl
@[simp] theorem State.hostfault_t (b : BitVec 3) : (s.hostfault b).t = s.t := rfl
@[simp] theorem State.hostfault_line (b : BitVec 3) : (s.hostfault b).line = s.line := rfl
@[simp] theorem State.hostfault_err (b : BitVec 3) : (s.hostfault b).err = s.err := rfl
@[simp] theorem State.hostfault_failPulse (b : BitVec 3) : (s.hostfault b).failPulse = s.failPulse := rfl
@[simp] theorem State.hostfault_hostFault (b : BitVec 3) : (s.hostfault b).hostFault = s.hostFault ||| b := rfl
@[simp] theorem State.hostfault_ports (b : BitVec 3) : (s.hostfault b).ports = s.ports := rfl
@[simp] theorem State.hostfault_draws (b : BitVec 3) : (s.hostfault b).draws = s.draws := rfl
@[simp] theorem State.hostfault_lineDraw (b : BitVec 3) : (s.hostfault b).lineDraw = s.lineDraw := rfl
@[simp] theorem State.hostfault_trace (b : BitVec 3) : (s.hostfault b).trace = s.trace := rfl

/-! ### sleepAnswered: the clock's answer is used up -/

@[simp] theorem State.sleepAnswered_pos : (s.sleepAnswered).pos = s.pos := rfl
@[simp] theorem State.sleepAnswered_payload : (s.sleepAnswered).payload = s.payload := rfl
@[simp] theorem State.sleepAnswered_stage : (s.sleepAnswered).stage = s.stage := rfl
@[simp] theorem State.sleepAnswered_stageValid : (s.sleepAnswered).stageValid = s.stageValid := rfl
@[simp] theorem State.sleepAnswered_t : (s.sleepAnswered).t = s.t := rfl
@[simp] theorem State.sleepAnswered_line : (s.sleepAnswered).line = s.line := rfl
@[simp] theorem State.sleepAnswered_err : (s.sleepAnswered).err = s.err := rfl
@[simp] theorem State.sleepAnswered_failPulse : (s.sleepAnswered).failPulse = s.failPulse := rfl
@[simp] theorem State.sleepAnswered_hostFault : (s.sleepAnswered).hostFault = s.hostFault := rfl
@[simp] theorem State.sleepAnswered_ports : (s.sleepAnswered).ports = { s.ports with sleepAnswers := s.ports.sleepAnswers.tail } := rfl
@[simp] theorem State.sleepAnswered_draws : (s.sleepAnswered).draws = s.draws := rfl
@[simp] theorem State.sleepAnswered_lineDraw : (s.sleepAnswered).lineDraw = s.lineDraw := rfl
@[simp] theorem State.sleepAnswered_trace : (s.sleepAnswered).trace = s.trace := rfl

/-! ### turnTaken: a turn is taken -/

@[simp] theorem State.turnTaken_pos : (s.turnTaken).pos = s.pos := rfl
@[simp] theorem State.turnTaken_payload : (s.turnTaken).payload = s.payload := rfl
@[simp] theorem State.turnTaken_stage : (s.turnTaken).stage = s.stage := rfl
@[simp] theorem State.turnTaken_stageValid : (s.turnTaken).stageValid = s.stageValid := rfl
@[simp] theorem State.turnTaken_t : (s.turnTaken).t = s.t := rfl
@[simp] theorem State.turnTaken_line : (s.turnTaken).line = s.line := rfl
@[simp] theorem State.turnTaken_err : (s.turnTaken).err = s.err := rfl
@[simp] theorem State.turnTaken_failPulse : (s.turnTaken).failPulse = s.failPulse := rfl
@[simp] theorem State.turnTaken_hostFault : (s.turnTaken).hostFault = s.hostFault := rfl
@[simp] theorem State.turnTaken_ports : (s.turnTaken).ports = { s.ports with turns := s.ports.turns.tail } := rfl
@[simp] theorem State.turnTaken_draws : (s.turnTaken).draws = s.draws := rfl
@[simp] theorem State.turnTaken_lineDraw : (s.turnTaken).lineDraw = s.lineDraw := rfl
@[simp] theorem State.turnTaken_trace : (s.turnTaken).trace = s.trace := rfl

/-! ### withCmd: a command is taken -/

@[simp] theorem State.withCmd_pos (r : List Byte) : (s.withCmd r).pos = s.pos := rfl
@[simp] theorem State.withCmd_payload (r : List Byte) : (s.withCmd r).payload = s.payload := rfl
@[simp] theorem State.withCmd_stage (r : List Byte) : (s.withCmd r).stage = s.stage := rfl
@[simp] theorem State.withCmd_stageValid (r : List Byte) : (s.withCmd r).stageValid = s.stageValid := rfl
@[simp] theorem State.withCmd_t (r : List Byte) : (s.withCmd r).t = s.t := rfl
@[simp] theorem State.withCmd_line (r : List Byte) : (s.withCmd r).line = s.line := rfl
@[simp] theorem State.withCmd_err (r : List Byte) : (s.withCmd r).err = s.err := rfl
@[simp] theorem State.withCmd_failPulse (r : List Byte) : (s.withCmd r).failPulse = s.failPulse := rfl
@[simp] theorem State.withCmd_hostFault (r : List Byte) : (s.withCmd r).hostFault = s.hostFault := rfl
@[simp] theorem State.withCmd_ports (r : List Byte) : (s.withCmd r).ports = { s.ports with cmd := r } := rfl
@[simp] theorem State.withCmd_draws (r : List Byte) : (s.withCmd r).draws = s.draws := rfl
@[simp] theorem State.withCmd_lineDraw (r : List Byte) : (s.withCmd r).lineDraw = s.lineDraw := rfl
@[simp] theorem State.withCmd_trace (r : List Byte) : (s.withCmd r).trace = s.trace := rfl

/-! ### withLineReady: the LINE_READY input changes -/

@[simp] theorem State.withLineReady_pos (b : Bool) : (s.withLineReady b).pos = s.pos := rfl
@[simp] theorem State.withLineReady_payload (b : Bool) : (s.withLineReady b).payload = s.payload := rfl
@[simp] theorem State.withLineReady_stage (b : Bool) : (s.withLineReady b).stage = s.stage := rfl
@[simp] theorem State.withLineReady_stageValid (b : Bool) : (s.withLineReady b).stageValid = s.stageValid := rfl
@[simp] theorem State.withLineReady_t (b : Bool) : (s.withLineReady b).t = s.t := rfl
@[simp] theorem State.withLineReady_line (b : Bool) : (s.withLineReady b).line = s.line := rfl
@[simp] theorem State.withLineReady_err (b : Bool) : (s.withLineReady b).err = s.err := rfl
@[simp] theorem State.withLineReady_failPulse (b : Bool) : (s.withLineReady b).failPulse = s.failPulse := rfl
@[simp] theorem State.withLineReady_hostFault (b : Bool) : (s.withLineReady b).hostFault = s.hostFault := rfl
@[simp] theorem State.withLineReady_ports (b : Bool) : (s.withLineReady b).ports = { s.ports with lineReady := b } := rfl
@[simp] theorem State.withLineReady_draws (b : Bool) : (s.withLineReady b).draws = s.draws := rfl
@[simp] theorem State.withLineReady_lineDraw (b : Bool) : (s.withLineReady b).lineDraw = s.lineDraw := rfl
@[simp] theorem State.withLineReady_trace (b : Bool) : (s.withLineReady b).trace = s.trace := rfl

/-! ### accept: a TRANSMIT is accepted (R120) -/

@[simp] theorem State.accept_pos : (s.accept).pos = s.pos.restart := rfl
@[simp] theorem State.accept_payload : (s.accept).payload = s.stage := rfl
@[simp] theorem State.accept_stage : (s.accept).stage = s.stage := rfl
@[simp] theorem State.accept_stageValid : (s.accept).stageValid = s.stageValid := rfl
@[simp] theorem State.accept_t : (s.accept).t = s.t := rfl
@[simp] theorem State.accept_line : (s.accept).line = s.line := rfl
@[simp] theorem State.accept_err : (s.accept).err = .none := rfl
@[simp] theorem State.accept_failPulse : (s.accept).failPulse = none := rfl
@[simp] theorem State.accept_hostFault : (s.accept).hostFault = s.hostFault := rfl
@[simp] theorem State.accept_ports : (s.accept).ports = s.ports := rfl
@[simp] theorem State.accept_draws : (s.accept).draws = s.draws := rfl
@[simp] theorem State.accept_lineDraw : (s.accept).lineDraw = s.lineDraw := rfl
@[simp] theorem State.accept_trace : (s.accept).trace = s.trace := rfl

/-! ### start: a transmission starts (R120) -/

@[simp] theorem State.start_pos (t0 : AbsTime) : (s.start t0).pos = { s.pos with phase := .hdrMark } := rfl
@[simp] theorem State.start_payload (t0 : AbsTime) : (s.start t0).payload = s.payload := rfl
@[simp] theorem State.start_stage (t0 : AbsTime) : (s.start t0).stage = s.stage := rfl
@[simp] theorem State.start_stageValid (t0 : AbsTime) : (s.start t0).stageValid = s.stageValid := rfl
@[simp] theorem State.start_t (t0 : AbsTime) : (s.start t0).t = t0 := rfl
@[simp] theorem State.start_line (t0 : AbsTime) : (s.start t0).line = s.line := rfl
@[simp] theorem State.start_err (t0 : AbsTime) : (s.start t0).err = s.err := rfl
@[simp] theorem State.start_failPulse (t0 : AbsTime) : (s.start t0).failPulse = s.failPulse := rfl
@[simp] theorem State.start_hostFault (t0 : AbsTime) : (s.start t0).hostFault = s.hostFault := rfl
@[simp] theorem State.start_ports (t0 : AbsTime) : (s.start t0).ports = s.ports := rfl
@[simp] theorem State.start_draws (t0 : AbsTime) : (s.start t0).draws = s.draws := rfl
@[simp] theorem State.start_lineDraw (t0 : AbsTime) : (s.start t0).lineDraw = s.lineDraw := rfl
@[simp] theorem State.start_trace (t0 : AbsTime) : (s.start t0).trace = s.trace := rfl

/-! ### emitOk: a pulse is started (R125) -/

@[simp] theorem State.emitOk_pos (k : PulseKind) : (s.emitOk k).pos = { s.pos with sub := .wait } := rfl
@[simp] theorem State.emitOk_payload (k : PulseKind) : (s.emitOk k).payload = s.payload := rfl
@[simp] theorem State.emitOk_stage (k : PulseKind) : (s.emitOk k).stage = s.stage := rfl
@[simp] theorem State.emitOk_stageValid (k : PulseKind) : (s.emitOk k).stageValid = s.stageValid := rfl
@[simp] theorem State.emitOk_t (k : PulseKind) : (s.emitOk k).t = addUs s.t (durationOf k) := rfl
@[simp] theorem State.emitOk_line (k : PulseKind) : (s.emitOk k).line = .driven (levelOf k) := rfl
@[simp] theorem State.emitOk_err (k : PulseKind) : (s.emitOk k).err = s.err := rfl
@[simp] theorem State.emitOk_failPulse (k : PulseKind) : (s.emitOk k).failPulse = s.failPulse := rfl
@[simp] theorem State.emitOk_hostFault (k : PulseKind) : (s.emitOk k).hostFault = s.hostFault := rfl
@[simp] theorem State.emitOk_ports (k : PulseKind) : (s.emitOk k).ports = s.ports := rfl
@[simp] theorem State.emitOk_draws (k : PulseKind) : (s.emitOk k).draws = s.draws := rfl
@[simp] theorem State.emitOk_lineDraw (k : PulseKind) : (s.emitOk k).lineDraw = s.lineDraw := rfl
@[simp] theorem State.emitOk_trace (k : PulseKind) : (s.emitOk k).trace = s.trace := rfl

/-! ### advance: the sequencer advances (R126) -/

@[simp] theorem State.advance_pos : (s.advance).pos = { s.pos.next with sub := .emit } := rfl
@[simp] theorem State.advance_payload : (s.advance).payload = s.payload := rfl
@[simp] theorem State.advance_stage : (s.advance).stage = s.stage := rfl
@[simp] theorem State.advance_stageValid : (s.advance).stageValid = s.stageValid := rfl
@[simp] theorem State.advance_t : (s.advance).t = s.t := rfl
@[simp] theorem State.advance_line : (s.advance).line = s.line := rfl
@[simp] theorem State.advance_err : (s.advance).err = s.err := rfl
@[simp] theorem State.advance_failPulse : (s.advance).failPulse = s.failPulse := rfl
@[simp] theorem State.advance_hostFault : (s.advance).hostFault = s.hostFault := rfl
@[simp] theorem State.advance_ports : (s.advance).ports = s.ports := rfl
@[simp] theorem State.advance_draws : (s.advance).draws = s.draws := rfl
@[simp] theorem State.advance_lineDraw : (s.advance).lineDraw = s.lineDraw := rfl
@[simp] theorem State.advance_trace : (s.advance).trace = s.trace := rfl

/-! ### lineAnswered: the line's answer is used up -/

@[simp] theorem State.lineAnswered_pos : (s.lineAnswered).pos = s.pos := by unfold State.lineAnswered; split <;> rfl
@[simp] theorem State.lineAnswered_payload : (s.lineAnswered).payload = s.payload := by unfold State.lineAnswered; split <;> rfl
@[simp] theorem State.lineAnswered_stage : (s.lineAnswered).stage = s.stage := by unfold State.lineAnswered; split <;> rfl
@[simp] theorem State.lineAnswered_stageValid : (s.lineAnswered).stageValid = s.stageValid := by unfold State.lineAnswered; split <;> rfl
@[simp] theorem State.lineAnswered_t : (s.lineAnswered).t = s.t := by unfold State.lineAnswered; split <;> rfl
@[simp] theorem State.lineAnswered_line : (s.lineAnswered).line = s.line := by unfold State.lineAnswered; split <;> rfl
@[simp] theorem State.lineAnswered_err : (s.lineAnswered).err = s.err := by unfold State.lineAnswered; split <;> rfl
@[simp] theorem State.lineAnswered_failPulse : (s.lineAnswered).failPulse = s.failPulse := by unfold State.lineAnswered; split <;> rfl
@[simp] theorem State.lineAnswered_hostFault : (s.lineAnswered).hostFault = s.hostFault := by unfold State.lineAnswered; split <;> rfl
@[simp] theorem State.lineAnswered_lineDraw : (s.lineAnswered).lineDraw = s.lineDraw := by unfold State.lineAnswered; split <;> rfl
@[simp] theorem State.lineAnswered_trace : (s.lineAnswered).trace = s.trace := by unfold State.lineAnswered; split <;> rfl

/-! ### nowAnswered: the clock's answer is used up -/

@[simp] theorem State.nowAnswered_pos : (s.nowAnswered).pos = s.pos := by unfold State.nowAnswered; split <;> rfl
@[simp] theorem State.nowAnswered_payload : (s.nowAnswered).payload = s.payload := by unfold State.nowAnswered; split <;> rfl
@[simp] theorem State.nowAnswered_stage : (s.nowAnswered).stage = s.stage := by unfold State.nowAnswered; split <;> rfl
@[simp] theorem State.nowAnswered_stageValid : (s.nowAnswered).stageValid = s.stageValid := by unfold State.nowAnswered; split <;> rfl
@[simp] theorem State.nowAnswered_t : (s.nowAnswered).t = s.t := by unfold State.nowAnswered; split <;> rfl
@[simp] theorem State.nowAnswered_line : (s.nowAnswered).line = s.line := by unfold State.nowAnswered; split <;> rfl
@[simp] theorem State.nowAnswered_err : (s.nowAnswered).err = s.err := by unfold State.nowAnswered; split <;> rfl
@[simp] theorem State.nowAnswered_failPulse : (s.nowAnswered).failPulse = s.failPulse := by unfold State.nowAnswered; split <;> rfl
@[simp] theorem State.nowAnswered_hostFault : (s.nowAnswered).hostFault = s.hostFault := by unfold State.nowAnswered; split <;> rfl
@[simp] theorem State.nowAnswered_lineDraw : (s.nowAnswered).lineDraw = s.lineDraw := by unfold State.nowAnswered; split <;> rfl
@[simp] theorem State.nowAnswered_trace : (s.nowAnswered).trace = s.trace := by unfold State.nowAnswered; split <;> rfl

/-! ### The inputs an answer leaves alone -/

@[simp] theorem State.lineAnswered_ports_turns : s.lineAnswered.ports.turns = s.ports.turns := by unfold State.lineAnswered; split <;> rfl
@[simp] theorem State.lineAnswered_ports_cmd : s.lineAnswered.ports.cmd = s.ports.cmd := by unfold State.lineAnswered; split <;> rfl
@[simp] theorem State.lineAnswered_ports_lineReady : s.lineAnswered.ports.lineReady = s.ports.lineReady := by unfold State.lineAnswered; split <;> rfl
@[simp] theorem State.lineAnswered_ports_lineAnswers : s.lineAnswered.ports.lineAnswers = s.ports.lineAnswers.tail := by unfold State.lineAnswered; split <;> simp_all
@[simp] theorem State.lineAnswered_ports_nowAnswers : s.lineAnswered.ports.nowAnswers = s.ports.nowAnswers := by unfold State.lineAnswered; split <;> rfl
@[simp] theorem State.lineAnswered_ports_sleepAnswers : s.lineAnswered.ports.sleepAnswers = s.ports.sleepAnswers := by unfold State.lineAnswered; split <;> rfl

@[simp] theorem State.nowAnswered_ports_turns : s.nowAnswered.ports.turns = s.ports.turns := by unfold State.nowAnswered; split <;> rfl
@[simp] theorem State.nowAnswered_ports_cmd : s.nowAnswered.ports.cmd = s.ports.cmd := by unfold State.nowAnswered; split <;> rfl
@[simp] theorem State.nowAnswered_ports_lineReady : s.nowAnswered.ports.lineReady = s.ports.lineReady := by unfold State.nowAnswered; split <;> rfl
@[simp] theorem State.nowAnswered_ports_lineAnswers : s.nowAnswered.ports.lineAnswers = s.ports.lineAnswers := by unfold State.nowAnswered; split <;> rfl
@[simp] theorem State.nowAnswered_ports_nowAnswers : s.nowAnswered.ports.nowAnswers = s.ports.nowAnswers.tail := by unfold State.nowAnswered; split <;> simp_all
@[simp] theorem State.nowAnswered_ports_sleepAnswers : s.nowAnswered.ports.sleepAnswers = s.ports.sleepAnswers := by unfold State.nowAnswered; split <;> rfl

/-! ### Derived words -/

@[simp] theorem State.observe_status (e : PortEvent) : (s.observe e).status = s.status := rfl
@[simp] theorem State.observe_busy (e : PortEvent) : (s.observe e).busy = s.busy := rfl
@[simp] theorem State.turnTaken_status : s.turnTaken.status = s.status := rfl
@[simp] theorem State.turnTaken_busy : s.turnTaken.busy = s.busy := rfl
@[simp] theorem State.withCmd_busy (r : List Byte) : (s.withCmd r).busy = s.busy := rfl

end Sys2Proof.Machine
end

