-- ==== Sys2Proof/Laws/Ops.lean ====
section
/-!
SUPPORT. What each shared operation can do, said once: time arithmetic, the kinds and the next position, a pulse's half
step, an accepted TRANSMIT, and one step of the machine. Later proofs cite these and do not unfold the operations.
-/

namespace Sys2Proof.Machine

/-! ### Time (spec/00_scope.md R14) -/

@[simp] theorem addNs_ns (t : AbsTime) (d : Nat) : (addNs t d).ns = t.ns + d := by
  simp only [addNs, AbsTime.ns]
  omega

theorem AbsTime.ext_ns {t u : AbsTime} (h : t.ns = u.ns) : t = u := by
  obtain ⟨s, ⟨n, hn⟩⟩ := t
  obtain ⟨s', ⟨n', hn'⟩⟩ := u
  simp only [AbsTime.ns] at h
  have : s = s' := by omega
  have : n = n' := by omega
  simp_all

theorem addUs_addUs (t : AbsTime) (d e : Nat) : addUs (addUs t d) e = addUs t (d + e) := by
  apply AbsTime.ext_ns
  simp only [addUs, addNs_ns]
  omega

@[simp] theorem addUs_zero (t : AbsTime) : addUs t 0 = t := by
  apply AbsTime.ext_ns
  simp [addUs]

/-! ### The position (spec/41_pulse_transmitter.md R122, R130) -/

/-- A pulse kind, a pulse index and BUSY exist at the same positions. -/
theorem Pos.kind_isSome (p : Pos) (m : Memory) : (p.kind m).isSome = p.phase.isPulse := by
  unfold Pos.kind; cases p.phase <;> rfl

theorem Pos.pidx_isSome (p : Pos) : p.pidx.isSome = p.phase.isPulse := by
  unfold Pos.pidx; cases p.phase <;> rfl

theorem Pos.pidx_eq_some {p : Pos} {n : Fin 582} :
    p.pidx = some n ↔ p.phase.isPulse = true ∧ p.pulseIndex = n.val := by
  unfold Pos.pidx
  split <;> simp_all [Fin.ext_iff]

theorem State.kind_none_of_idle {s : State} (h : s.busy = false) : s.pos.kind s.payload = none := by
  have := Pos.kind_isSome s.pos s.payload
  rw [show s.pos.phase.isPulse = false from h] at this
  simpa using this

/-! ### A pulse -/

/-- The half pulse the engine takes at a position of kind `k`, whole: four ways to go on, or wait for the clock
(R125, R126). -/
theorem State.pulseStep_cases {s : State} {k : PulseKind} (hk : s.pos.kind s.payload = some k) :
    (s.pos.sub = .emit ∧ s.lineAnswer = .ok ∧ s.pulseStep k =
      ((s.lineAnswered.emitOk k).observe (.setLevel (levelOf k) .ok)).observe (.sleepUntil (addUs s.t (durationOf k)))) ∨
    (s.pos.sub = .emit ∧ s.lineAnswer = .err ∧ s.pulseStep k =
      (s.lineAnswered.loseLine.raiseError .lineActuationFailure s.pos.pidx).observe (.setLevel (levelOf k) .err)) ∨
    (∃ late rest, s.pos.sub = .wait ∧ s.ports.sleepAnswers = .ok late :: rest ∧ s.pulseStep k =
      s.sleepAnswered.advance.observe (.wake (addNs s.t late) .ok)) ∨
    (∃ late rest, s.pos.sub = .wait ∧ s.ports.sleepAnswers = .err late :: rest ∧ s.pulseStep k =
      (s.sleepAnswered.raiseError .clockUnavailable s.pos.pidx).observe (.wake (addNs s.t late) .err)) ∨
    (s.pos.sub = .wait ∧ s.ports.sleepAnswers = [] ∧ s.pulseStep k = s) := by
  simp only [State.pulseStep, hk, if_true]
  cases hs : s.pos.sub with
  | emit =>
    simp only [State.emitStep]
    cases s.lineAnswer with
    | ok => exact .inl ⟨trivial, rfl, rfl⟩
    | err => exact .inr (.inl ⟨trivial, rfl, rfl⟩)
  | wait =>
    simp only [State.wakeStep]
    match s.ports.sleepAnswers with
    | [] => exact .inr (.inr (.inr (.inr ⟨trivial, rfl, rfl⟩)))
    | .ok late :: rest => exact .inr (.inr (.inl ⟨late, rest, trivial, rfl, rfl⟩))
    | .err late :: rest => exact .inr (.inr (.inr (.inl ⟨late, rest, trivial, rfl, rfl⟩)))

/-- A pulse kind's meaning is the half pulse of that kind. -/
theorem exec_pulse (k : PulseKind) (s : State) : exec k.instr s = .next (s.pulseStep k) := by cases k <;> rfl

/-! ### Commands -/

theorem exec_build (p m t f v : Byte) (s : State) :
    exec (.build p m t f v) s = .next (State.observe
      { s with stage := buildPayload p m t f v, stageValid := true } (.cmd (.build p m t f v))) := rfl

theorem exec_reserved (op : Byte) (s : State) :
    exec (.reserved op) s = .next ((s.hostfault illegalCmdBit).observe (.cmd (.reserved op))) := rfl

/-- The five outcomes of TRANSMIT, in the order of its checks (R120, R198). -/
theorem exec_transmit_cases (s : State) :
    (s.busy = true ∧ exec .transmit s = .next ((s.hostfault busyBit).observe (.cmd .transmit))) ∨
    (s.busy = false ∧ s.stageValid = false ∧
      exec .transmit s = .next ((s.hostfault noPayloadBit).observe (.cmd .transmit))) ∨
    (s.busy = false ∧ s.stageValid = true ∧ s.ports.lineReady = false ∧
      exec .transmit s = .next ((s.accept.raiseError .deviceUnavailable none).observe (.cmd .transmit))) ∨
    (s.busy = false ∧ s.stageValid = true ∧ s.ports.lineReady = true ∧ s.nowAnswer = none ∧
      exec .transmit s = .next
        (((s.accept.nowAnswered.raiseError .clockUnavailable none).observe (.cmd .transmit)).observe (.now none))) ∨
    (∃ t0, s.busy = false ∧ s.stageValid = true ∧ s.ports.lineReady = true ∧ s.nowAnswer = some t0 ∧
      exec .transmit s = .next (((s.accept.nowAnswered.start t0).observe (.cmd .transmit)).observe (.now (some t0)))) := by
  simp only [exec, execTransmit, State.transmitAccepted]
  cases s.busy with
  | true => exact .inl ⟨rfl, rfl⟩
  | false =>
    cases s.stageValid with
    | false => exact .inr (.inl ⟨rfl, rfl, rfl⟩)
    | true =>
      cases s.ports.lineReady with
      | false => exact .inr (.inr (.inl ⟨rfl, rfl, rfl, rfl⟩))
      | true =>
        cases s.nowAnswer with
        | none => exact .inr (.inr (.inr (.inl ⟨rfl, rfl, rfl, rfl, rfl⟩)))
        | some t0 => exact .inr (.inr (.inr (.inr ⟨t0, rfl, rfl, rfl, rfl, rfl⟩)))

/-! ### One step -/

/-- The engine's turn: wait while no transmission runs, else the half pulse at the position. -/
theorem runEngine_eq (s : State) : runEngine s =
    match s.pos.kind s.payload with
    | some k => .next (s.pulseStep k)
    | none   => .next s := by
  simp only [runEngine, State.fetchPulse_eq]
  cases s.pos.kind s.payload with
  | none => rfl
  | some k => exact exec_pulse k s

/-- Everything one step can do (R198). -/
theorem step_cases {s u : State} (h : step s = .next u) :
    (s.nextTurn = .engine ∧ s.pos.kind s.payload = none ∧ u = s.turnTaken) ∨
    (∃ k, s.nextTurn = .engine ∧ s.pos.kind s.payload = some k ∧ u = s.turnTaken.pulseStep k) ∨
    (s.nextTurn = .command ∧ s.fetchCommand = none ∧ u = s.turnTaken) ∨
    (∃ i rest, s.nextTurn = .command ∧ decodeCommand s.ports.cmd = .ok (i, rest) ∧
      exec i (s.turnTaken.withCmd rest) = .next u) ∨
    (s.nextTurn = .reset ∧ u = s.turnTaken.resetEvent) ∨
    (∃ b, s.nextTurn = .lineReady b ∧ u = s.turnTaken.withLineReady b) := by
  simp only [step] at h
  cases hn : s.nextTurn with
  | engine =>
    simp only [hn, runEngine_eq] at h
    change (match s.pos.kind s.payload with
      | some k => Host.Outcome.next (s.turnTaken.pulseStep k)
      | none => .next s.turnTaken) = .next u at h
    cases hk : s.pos.kind s.payload with
    | none =>
      simp only [hk] at h
      injection h with h
      exact .inl ⟨rfl, rfl, h.symm⟩
    | some k =>
      simp only [hk] at h
      injection h with h
      exact .inr (.inl ⟨k, rfl, rfl, h.symm⟩)
  | command =>
    simp only [hn, runCommand] at h
    change (match s.fetchCommand with
      | some (i, rest) => exec i (s.turnTaken.withCmd rest)
      | none => .next s.turnTaken) = .next u at h
    cases hf : s.fetchCommand with
    | none =>
      simp only [hf] at h
      injection h with h
      exact .inr (.inr (.inl ⟨rfl, rfl, h.symm⟩))
    | some r =>
      obtain ⟨i, rest⟩ := r
      simp only [hf] at h
      exact .inr (.inr (.inr (.inl ⟨i, rest, rfl, State.fetchCommand_eq_some.mp hf, h⟩)))
  | reset =>
    simp only [hn] at h
    injection h with h
    exact .inr (.inr (.inr (.inr (.inl ⟨rfl, h.symm⟩))))
  | lineReady b =>
    simp only [hn] at h
    injection h with h
    exact .inr (.inr (.inr (.inr (.inr ⟨b, rfl, h.symm⟩))))

end Sys2Proof.Machine
end

