-- ==== Sys2Proof/Laws/PerInstr.lean ====
section
/-!
SUPPORT. A fact of every instruction's encoding, one lemma per constructor: a command has as many bytes as its opcode says
(spec/30_encoding.md R80), and a pulse kind is no command (R73).
-/

namespace Sys2Proof.Laws.EncodedLength

/-- The words of an instruction are a command of the length its opcode gives, or a pulse-kind code. -/
def Statement (i : Instr) : Prop :=
  i.wellFormed = true →
    (∃ op operands, encode i = .command (op :: operands) ∧ operands.length + 1 = commandLength op ∧ i.isCommand = true) ∨
    (∃ code, encode i = .pulse code ∧ i.isCommand = false)

theorem build (p m t f v : Byte) : Statement (.build p m t f v) := fun _ => .inl ⟨_, _, rfl, rfl, rfl⟩

theorem transmit : Statement .transmit := fun _ => .inl ⟨_, _, rfl, rfl, rfl⟩

theorem reserved (op : Byte) : Statement (.reserved op) := fun h => .inl ⟨op, [], rfl, by
  have : op ≠ 0x01#8 := by simp only [Instr.wellFormed, Bool.and_eq_true, bne_iff_ne] at h; exact h.1
  simp [commandLength, this], rfl⟩

theorem hdrMark : Statement .hdrMark := fun _ => .inr ⟨_, rfl, rfl⟩

theorem hdrSpace : Statement .hdrSpace := fun _ => .inr ⟨_, rfl, rfl⟩

theorem bitMark : Statement .bitMark := fun _ => .inr ⟨_, rfl, rfl⟩

theorem zeroSpace : Statement .zeroSpace := fun _ => .inr ⟨_, rfl, rfl⟩

theorem oneSpace : Statement .oneSpace := fun _ => .inr ⟨_, rfl, rfl⟩

theorem rptMark : Statement .rptMark := fun _ => .inr ⟨_, rfl, rfl⟩

theorem rptSpace : Statement .rptSpace := fun _ => .inr ⟨_, rfl, rfl⟩

theorem unusedPulseKind : Statement .unusedPulseKind := fun _ => .inr ⟨_, rfl, rfl⟩

end Sys2Proof.Laws.EncodedLength
end

