-- ==== Sys2Proof/Laws/Run.lean ====
section
/-!
SUPPORT. Runs of several steps: one step at a time, and one run after another.
-/

namespace Sys2Proof.Machine

@[simp] theorem run_zero (s : State) : Sys2Proof.core.run 0 s = .next s := rfl

/-- A run whose first step answers `u` is the rest of the run from `u`. -/
theorem run_step {s u : State} (h : step s = .next u) (n : Nat) : Sys2Proof.core.run (n + 1) s = Sys2Proof.core.run n u := by
  have h' : Sys2Proof.core.step s = .next u := h
  simp only [Host.Core.run, h']

/-- A run of `a + b` steps is a run of `a` steps and then one of `b`. -/
theorem run_add {s u : State} {a : Nat} (h : Sys2Proof.core.run a s = .next u) (b : Nat) :
    Sys2Proof.core.run (a + b) s = Sys2Proof.core.run b u := by
  induction a generalizing s with
  | zero => simp only [Host.Core.run] at h; injection h with h; rw [Nat.zero_add, h]
  | succ a ih =>
    rw [Nat.add_right_comm]
    simp only [Host.Core.run] at h ⊢
    cases hs : Sys2Proof.core.step s with
    | next s' => simp only [hs] at h ⊢; exact ih h
    | fault _ => simp [hs] at h
    | refused _ => simp [hs] at h

end Sys2Proof.Machine
end

