-- ==== Sys2Proof/Laws/Schedule.lean ====
section
/-!
SUPPORT. Where each pulse stands in a frame (spec/20_memory.md R53; spec/30_encoding.md R74, R75).
-/

namespace Sys2Proof.Machine

variable (m : Memory)

/-- The n-th bit on the wire is bit `n mod 8` of byte `n div 8`. -/
theorem wireBits_eq :
    wireBits m = (List.finRange 144).map fun n => m.bit ⟨n.val / 8, by omega⟩ ⟨n.val % 8, by omega⟩ := by
  rfl

@[simp] theorem wireBits_length : (wireBits m).length = 144 := by simp [wireBits_eq]

theorem wireBits_get (b : Fin 18) (i : Fin 8) : (wireBits m)[8 * b.val + i.val]? = some (m.bit b i) := by
  have h : 8 * b.val + i.val < 144 := by omega
  have hb : (8 * b.val + i.val) / 8 = b.val := by omega
  have hi : (8 * b.val + i.val) % 8 = i.val := by omega
  rw [List.getElem?_eq_getElem (by simpa using h)]
  simp only [wireBits_eq, List.getElem_map, List.getElem_finRange, Fin.cast_mk, Option.some.injEq]
  congr 1 <;> exact Fin.ext (by assumption)

theorem bitPulses_length (bits : List Bool) : (bits.flatMap bitSym).length = 2 * bits.length := by
  induction bits with
  | nil => rfl
  | cons v bits ih => simp only [List.flatMap_cons, List.length_append, ih, List.length_cons, bitSym, List.length_nil]; omega

/-- The mark of the n-th bit. -/
theorem bitPulses_mark (bits : List Bool) (n : Nat) :
    (bits.flatMap bitSym)[2 * n]? = bits[n]?.map fun _ => PulseKind.bitMark := by
  induction bits generalizing n with
  | nil => simp
  | cons v bits ih =>
    cases n with
    | zero => rfl
    | succ n => simpa [bitSym, Nat.mul_add] using ih n

/-- The space of the n-th bit. -/
theorem bitPulses_space (bits : List Bool) (n : Nat) :
    (bits.flatMap bitSym)[2 * n + 1]? = bits[n]?.map spaceKind := by
  induction bits generalizing n with
  | nil => simp
  | cons v bits ih =>
    cases n with
    | zero => rfl
    | succ n => simpa [bitSym, Nat.mul_add] using ih n

@[simp] theorem frameOf_length : (frameOf m).length = 290 := by
  rw [frameOf, List.length_append, bitPulses_length, wireBits_length]; rfl

theorem frameOf_mark (b : Fin 18) (i : Fin 8) : (frameOf m)[2 + 2 * (8 * b.val + i.val)]? = some .bitMark := by
  have h : 2 + 2 * (8 * b.val + i.val) = 2 * (8 * b.val + i.val) + 1 + 1 := by omega
  simp [frameOf, h, bitPulses_mark, wireBits_get]

theorem frameOf_space (b : Fin 18) (i : Fin 8) : (frameOf m)[3 + 2 * (8 * b.val + i.val)]? =
    some (spaceKind (m.bit b i)) := by
  have h : 3 + 2 * (8 * b.val + i.val) = 2 * (8 * b.val + i.val) + 1 + 1 + 1 := by omega
  simp [frameOf, h, bitPulses_space, wireBits_get]

/-- Pulse `n < 290` of a transmission is pulse `n` of its frame. -/
theorem transmission_first {n : Nat} (h : n < 290) : (transmission m)[n]? = (frameOf m)[n]? := by
  rw [transmission, List.append_assoc, List.getElem?_append_left (by simpa using h)]

/-- Pulse `292 + n` of a transmission is pulse `n` of its frame again. -/
theorem transmission_second (n : Nat) : (transmission m)[292 + n]? = (frameOf m)[n]? := by
  have h : (frameOf m ++ repeatGap).length = 292 := by rw [List.length_append, frameOf_length]; rfl
  rw [transmission, List.getElem?_append_right (by omega), h, Nat.add_sub_cancel_left]

end Sys2Proof.Machine
end

