-- ==== Sys2Proof/Tests/Slice0.lean ====
section
/-!
SUPPORT. The model's own tests. Expected values are the spec's: the encodings of spec/30_encoding.md and the vectors L1, L2 and
programs P1 to P5 of spec/95_test_vectors.md. After them, for each statement with hypotheses, states that meet them.
-/

namespace Sys2Proof.Tests
open Sys2Proof Sys2Proof.Machine

/-! ### Small states -/

/-- The state of an answer, and the reset state where there is none. -/
def after (o : Host.Outcome State Fault Refusal) : State :=
  match o with
  | .next s    => s
  | .fault _   => State.reset
  | .refused _ => State.reset

/-- The example payload EX (L1-1). -/
def exPayload : Memory := buildPayload 0x20#8 0x08#8 0x05#8 0x30#8 0x63#8

/-- One good answer of every kind, the line ready. -/
def goodPorts : Ports :=
  { turns := [], cmd := [], lineReady := true, lineAnswers := [.ok], nowAnswers := [some { sec := 10, nsec := 0 }],
    sleepAnswers := [.ok 0] }

/-- EX staged, from reset, all ports answering well. -/
def staged : State := { State.reset with stage := exPayload, stageValid := true, ports := goodPorts }

/-- EX staged, with turns, command bytes and LINE_READY. -/
def host (turns : List Turn) (cmd : List Byte) : State := { staged with ports := { goodPorts with turns := turns, cmd := cmd } }

/-- A transmission of EX at a position, `T` = (0, 0), all ports answering well. -/
def at_ (phase : Phase) (sub : Sub) (frame : Fin 2) (b : Fin 18) (i : Fin 8) : State :=
  { staged with payload := exPayload, pos := { phase := phase, sub := sub, frame := frame, byteIdx := b, bitIdx := i } }

/-- A state with the line and the clock answering `err`. -/
def badPorts (s : State) : State :=
  { s with ports := { s.ports with lineAnswers := [.err], nowAnswers := [none],
                                   sleepAnswers := [.err 0] } }

/-! ### Well-formedness: what no encoding writes down is refused -/

theorem test_wf_reserved_refuses_build_opcode : (Instr.reserved 0x01#8).wellFormed = false := by decide

theorem test_wf_reserved_refuses_transmit_opcode : (Instr.reserved 0x02#8).wellFormed = false := by decide

theorem test_wf_reserved_accepts_edges :
    (Instr.reserved 0x00#8).wellFormed ∧ (Instr.reserved 0x03#8).wellFormed ∧ (Instr.reserved 0xFF#8).wellFormed := by decide

/-! ### Decoding: words written out from R73 and R76 -/

/-- BUILD 0x20, 0x08, 0x05, 0x30, 0x63 is 01 20 08 05 30 63 (P1). -/
theorem test_decode_build :
    decode (.command [0b00000001#8, 0b00100000#8, 0b00001000#8, 0b00000101#8, 0b00110000#8, 0b01100011#8])
      = .ok (.build 0x20#8 0x08#8 0x05#8 0x30#8 0x63#8) := by decide

theorem test_decode_transmit : decode (.command [0b00000010#8]) = .ok .transmit := by decide

theorem test_decode_reserved_zero : decode (.command [0b00000000#8]) = .ok (.reserved 0x00#8) := by decide

theorem test_decode_reserved_three : decode (.command [0b00000011#8]) = .ok (.reserved 0x03#8) := by decide

theorem test_decode_hdrMark : decode (.pulse 0b000#3) = .ok .hdrMark := by decide

theorem test_decode_hdrSpace : decode (.pulse 0b001#3) = .ok .hdrSpace := by decide

theorem test_decode_bitMark : decode (.pulse 0b010#3) = .ok .bitMark := by decide

theorem test_decode_zeroSpace : decode (.pulse 0b011#3) = .ok .zeroSpace := by decide

theorem test_decode_oneSpace : decode (.pulse 0b100#3) = .ok .oneSpace := by decide

theorem test_decode_rptMark : decode (.pulse 0b101#3) = .ok .rptMark := by decide

theorem test_decode_rptSpace : decode (.pulse 0b110#3) = .ok .rptSpace := by decide

theorem test_decode_unusedPulseKind : decode (.pulse 0b111#3) = .ok .unusedPulseKind := by decide

/-- A BUILD with four operand bytes "has not been issued" (R80). -/
theorem test_decode_build_short : decode (.command [0x01#8, 0x20#8, 0x08#8, 0x05#8, 0x30#8]) = .error .operandsMissing := by
  decide

/-- The table's rows, in its numbering: BUILD's second byte is bits 15..8. -/
theorem test_table_words :
    decodeTableWord 48 0x633005082001 = some (.build 0x20#8 0x08#8 0x05#8 0x30#8 0x63#8) ∧
    decodeTableWord 8 0x02 = some .transmit ∧ decodeTableWord 8 0xFF = some (.reserved 0xFF#8) ∧
    decodeTableWord 3 0b010 = some .bitMark ∧ decodeTableWord 8 0b110 = some .rptSpace ∧
    decodeTableWord 8 0b111 = some .unusedPulseKind := by decide

/-- A placed table word is what the very next step runs. -/
theorem test_placed_word_runs :
    (after (step (State.reset.withFetchWord 8 0x02))).status = 0x13FF0000#32 ∧
    (after (step (State.reset.withFetchWord 8 0xFF))).status = 0x07FF0000#32 := by decide

/-! ### Reset -/

theorem test_reset_status : State.reset.status = 0x03FF0000#32 := by decide

theorem test_reset_stores_canonical : State.reset.stage.wf ∧ State.reset.payload.wf := by decide

/-- L2-10: a reset with a sleep outstanding at pulse 10. -/
theorem test_reset_event :
    let s := { at_ .bitMark .wait 0 0 4 with ports := { goodPorts with turns := [.reset] }, hostFault := 0b111#3 }
    (after (step s)).status = 0x03FF0000#32 ∧ (after (step s)).ports.sleepAnswers = [] := by decide

/-! ### BUILD (L1-1, L2-1) -/

theorem test_build_example :
    (after (exec (.build 0x20#8 0x08#8 0x05#8 0x30#8 0x63#8) State.reset)).stage.bytes =
      [0x23#8, 0xCB#8, 0x26#8, 0x01#8, 0x00#8, 0x20#8, 0x08#8, 0x05#8, 0x30#8, 0x63#8, 0x00#8, 0x00#8, 0x00#8, 0x00#8,
        0x00#8, 0x00#8, 0x00#8, 0xD5#8] ∧
    (after (exec (.build 0x20#8 0x08#8 0x05#8 0x30#8 0x63#8) State.reset)).status = 0x23FF0000#32 := by decide

theorem test_build_checksum_wraps :
    (buildPayload 0xEB#8 0x00#8 0x00#8 0x00#8 0x00#8).read 17 = 0x00#8 ∧
    (buildPayload 0xFF#8 0xFF#8 0xFF#8 0xFF#8 0xFF#8).read 17 = 0x10#8 := by decide

/-! ### TRANSMIT and the reserved opcodes (L2-6) -/

theorem test_transmit_accepted :
    (after (exec .transmit staged)).status = 0x63FF0001#32 ∧ (after (exec .transmit staged)).t = { sec := 10, nsec := 0 } := by
  decide

theorem test_transmit_refused_or_failed :
    (after (exec .transmit State.reset)).status = 0x13FF0000#32 ∧
    (after (exec .transmit { staged with ports := { goodPorts with lineReady := false } })).status = 0x23FF4008#32 ∧
    (after (exec .transmit (badPorts staged))).status = 0x23FFC008#32 ∧
    (after (exec .transmit (at_ .hdrMark .wait 0 0 0))).status = 0x6BFF0011#32 := by decide

theorem test_reserved_sets_illegal_cmd : (after (exec (.reserved 0x07#8) State.reset)).status = 0x07FF0000#32 := by decide

/-! ### Pulses (L2-7, L2-8) -/

theorem test_hdrMark :
    (after (exec .hdrMark (at_ .hdrMark .emit 0 0 0))).t = { sec := 0, nsec := 3400000 } ∧
    (after (exec .hdrMark (at_ .hdrMark .wait 0 0 0))).pos = (at_ .hdrSpace .emit 0 0 0).pos := by decide

/-- L2-8: `SetLevel` answers err at pulse 0. -/
theorem test_hdrMark_line_failure :
    (after (exec .hdrMark (badPorts (at_ .hdrMark .emit 0 0 0)))).status = 0x20008008#32 := by decide

theorem test_hdrSpace :
    (after (exec .hdrSpace (at_ .hdrSpace .emit 1 17 7))).t = { sec := 0, nsec := 1750000 } ∧
    (after (exec .hdrSpace (at_ .hdrSpace .wait 1 17 7))).pos = (at_ .bitMark .emit 1 0 0).pos := by decide

theorem test_bitMark :
    (after (exec .bitMark (at_ .bitMark .emit 0 5 0))).t = { sec := 0, nsec := 340000 } ∧
    (after (exec .bitMark (at_ .bitMark .wait 0 5 0))).pos = (at_ .bitSpace .emit 0 5 0).pos := by decide

/-- 0x20 bit 0 = 0. -/
theorem test_zeroSpace :
    (after (exec .zeroSpace (at_ .bitSpace .emit 0 5 0))).t = { sec := 0, nsec := 420000 } ∧
    (after (exec .zeroSpace (at_ .bitSpace .wait 0 5 0))).pos = (at_ .bitMark .emit 0 5 1).pos := by decide

/-- L2-8: `SetLevel` answers err at pulse 49, the source's 50th. -/
theorem test_zeroSpace_line_failure :
    (after (exec .zeroSpace (badPorts (at_ .bitSpace .emit 0 2 7)))).status = 0x2031B888#32 := by decide

/-- 0x20 bit 5 = 1. -/
theorem test_oneSpace :
    (after (exec .oneSpace (at_ .bitSpace .emit 0 5 5))).t = { sec := 0, nsec := 1300000 } ∧
    (after (exec .oneSpace (at_ .bitSpace .wait 0 5 5))).pos = (at_ .bitMark .emit 0 5 6).pos := by decide

/-- L2-8: the wake of pulse 581 answers err; R135: or ok. -/
theorem test_oneSpace_last_wake :
    (after (exec .oneSpace (badPorts (at_ .bitSpace .wait 1 17 7)))).status = 0x2245FC68#32 ∧
    (after (exec .oneSpace (at_ .bitSpace .wait 1 17 7))).status = 0x23FF3C67#32 := by decide

theorem test_rptMark :
    (after (exec .rptMark (at_ .rptMark .emit 0 17 7))).t = { sec := 0, nsec := 440000 } ∧
    (after (exec .rptMark (at_ .rptMark .wait 0 17 7))).pos = (at_ .rptSpace .emit 0 17 7).pos := by decide

theorem test_rptSpace :
    (after (exec .rptSpace (at_ .rptSpace .emit 0 17 7))).t = { sec := 0, nsec := 17100000 } ∧
    (after (exec .rptSpace (at_ .rptSpace .wait 0 17 7))).pos = (at_ .hdrMark .emit 1 17 7).pos := by decide

/-- R170: a sleep's answer, `err` too, is given at or after its deadline, here 1000 ns after it. -/
theorem test_sleep_err_after_deadline :
    ((after (exec .rptMark { at_ .rptMark .wait 0 17 7 with
        t := { sec := 3, nsec := 999999999 }, ports := { goodPorts with sleepAnswers := [.err 1000] } })).trace.map (·.event))
      = [.wake { sec := 4, nsec := 999 } .err] := by decide

/-- L2-8: the wake of pulse 291 answers err. -/
theorem test_rptSpace_clock_failure :
    (after (exec .rptSpace (badPorts (at_ .rptSpace .wait 0 17 7)))).status = 0x2123FC48#32 := by decide

theorem test_unusedPulseKind_stops : exec .unusedPulseKind State.reset = .fault .unusedPulseKind := rfl

/-! ### Functions (L1-2, L2-3, L2-4, L2-5) -/

theorem test_addUs :
    addUs { sec := 5, nsec := 999000000 } 3400 = { sec := 6, nsec := 2400000 } ∧
    addUs { sec := 7, nsec := 999999999 } 340 = { sec := 8, nsec := 339999 } ∧
    addUs { sec := 0, nsec := 996600000 } 3400 = { sec := 1, nsec := 0 } := by decide

/-- L2-3. The row (BIT_SPACE, 1, 16, 7) of L2-3 says 563, where R130 gives 292 + 3 + 2 * 135 = 565 (log 22). -/
theorem test_pidx :
    (at_ .bitSpace .emit 0 2 7).pos.pidx = some 49 ∧ (at_ .hdrMark .emit 1 17 7).pos.pidx = some 292 ∧
    (at_ .bitSpace .emit 1 16 7).pos.pidx = some 565 ∧ State.reset.pos.pidx = none := by decide

/-- L2-2: 0x01 is sent bit 0 first. -/
theorem test_bit_order :
    (wireBits [(0, 0x01#8), (1, 0x80#8)]).take 16 =
      [true, false, false, false, false, false, false, false, false, false, false, false, false, false, false, true] := by
  decide

theorem test_schedule_rows :
    (schedule exPayload).take 8 = [(.high, 3400), (.low, 1750), (.high, 340), (.low, 1300), (.high, 340), (.low, 1300),
      (.high, 340), (.low, 420)] ∧ onesOf exPayload = 27 := by decide

/-! ### Text (R81 to R83) -/

theorem test_assemble_send :
    assemble ['S', 'E', 'N', 'D', ' ', '0', 'x', '2', '0', ',', ' ', '8', ',', '5', ',', ' ', '0', 'x', '3', '0', ',', '9', '9',
      ' ', ';', ' ', 'E', 'X', '\n', 'W', 'A', 'I', 'T', 'D', 'O', 'N', 'E'] =
      some [0x01#8, 0x20#8, 0x08#8, 0x05#8, 0x30#8, 0x63#8, 0x02#8] := by decide

theorem test_assemble_byte : assemble ['.', 'b', 'y', 't', 'e', ' ', '0', 'x', '0', '7'] = some [0x07#8] := by decide

/-- `M3400 S1750 M340 S1300`, a header followed by a 1 bit (R83). -/
theorem test_schedule_text :
    scheduleText [(.high, 3400), (.low, 1750), (.high, 340), (.low, 1300)] =
      ['M', '3', '4', '0', '0', ' ', 'S', '1', '7', '5', '0', ' ', 'M', '3', '4', '0', ' ', 'S', '1', '3', '0', '0'] := by
  decide

/-! ### States that meet the hypotheses of the statements, clause by clause at boundary values -/

theorem witness_CommandLengthFromOpcode :
    decodeCommand [0x01#8, 1#8, 2#8, 3#8, 4#8, 5#8, 6#8] = .ok (.build 1#8 2#8 3#8 4#8 5#8, [6#8]) ∧
    ([1#8, 2#8, 3#8, 4#8] : List Byte).length < 5 ∧ (0x00#8 : Byte) ≠ 0x01#8 ∧ (0x00#8 : Byte) ≠ 0x02#8 ∧
    (0x03#8 : Byte) ≠ 0x01#8 ∧ (0x03#8 : Byte) ≠ 0x02#8 := by decide

theorem witness_DecodeOfEncode :
    (Instr.reserved 0x03#8).wellFormed = true ∧ (Instr.build 0xFF#8 0#8 0#8 0#8 0#8).wellFormed = true := by decide

theorem witness_EncodeOfDecode : decode (.command [0x03#8]) = .ok (.reserved 0x03#8) := by decide

theorem witness_StepRunsDecodedCommand :
    (host [.command] [0x02#8, 0x07#8]).nextTurn = .command ∧
    decodeCommand (host [.command] [0x02#8, 0x07#8]).ports.cmd = .ok (.transmit, [0x07#8]) := by decide

theorem witness_StepRunsDecodedPulse :
    (at_ .bitSpace .emit 0 5 5).nextTurn = .engine ∧
    (at_ .bitSpace .emit 0 5 5).pos.kind (at_ .bitSpace .emit 0 5 5).payload = some .oneSpace ∧
    decode (.pulse PulseKind.oneSpace.code) = .ok .oneSpace := by decide

theorem witness_StepWaitsWithNothingEnabled_rest :
    State.reset.nextTurn = .engine ∧ State.reset.pos.phase = .idle ∧
    (at_ .done .emit 1 17 7).nextTurn = .engine ∧ (at_ .failed .emit 0 2 7).nextTurn = .engine := by decide

theorem witness_StepWaitsWithNothingEnabled_wait :
    let s := { at_ .bitMark .wait 0 0 0 with ports := { goodPorts with sleepAnswers := [] } }
    s.nextTurn = .engine ∧ s.pos.sub = .wait ∧ s.ports.sleepAnswers = [] := by decide

theorem witness_StepWaitsWithNothingEnabled_command :
    (host [.command] []).nextTurn = .command ∧ decodeCommand (host [.command] []).ports.cmd = .error .noOpcode ∧
    decodeCommand (host [.command] [0x01#8, 1#8, 2#8, 3#8, 4#8]).ports.cmd = .error .operandsMissing := by decide

theorem witness_ResetEventAbandons :
    (host [.reset] []).nextTurn = .reset ∧ (host [.reset] []).pos.sub = .emit ∧
    ({ at_ .rptSpace .wait 0 17 7 with ports := { goodPorts with turns := [.reset] } } : State).nextTurn = .reset ∧
    (at_ .rptSpace .wait 0 17 7).pos.sub = .wait := by decide

theorem witness_TransmitStartsFirstPulse :
    staged.busy = false ∧ staged.stageValid = true ∧ staged.ports.lineReady = true ∧
    staged.nowAnswer = some { sec := 10, nsec := 0 } := by decide

theorem witness_TransmitWithoutLine :
    let s := { at_ .failed .emit 0 2 7 with ports := { goodPorts with lineReady := false } }
    s.busy = false ∧ s.stageValid = true ∧ s.ports.lineReady = false := by decide

theorem witness_TransmitWithoutClock :
    (badPorts (at_ .done .emit 1 17 7)).busy = false ∧ (badPorts (at_ .done .emit 1 17 7)).stageValid = true ∧
    (badPorts (at_ .done .emit 1 17 7)).ports.lineReady = true ∧ (badPorts (at_ .done .emit 1 17 7)).nowAnswer = none := by
  decide

theorem witness_HostFaultsSetOneBit :
    (at_ .hdrMark .emit 0 0 0).busy = true ∧ (at_ .rptSpace .wait 0 17 7).busy = true ∧
    State.reset.busy = false ∧ State.reset.stageValid = false := by decide

theorem witness_HostFaultBitsSticky :
    ∃ u v, step (host [.command] [0x07#8]) = .next u ∧ (host [.command] [0x07#8]).nextTurn ≠ .reset ∧
      step (host [.reset] []) = .next v ∧ (host [.reset] []).nextTurn = .reset :=
  ⟨_, _, rfl, by decide, rfl, by decide⟩

/-- Every half of a pulse, with each answer: the answers of `at_` are good, those of `badPorts` are errors. -/
theorem witness_pulse_answers :
    (at_ .hdrMark .emit 0 0 0).lineAnswer = .ok ∧ (badPorts (at_ .hdrMark .emit 0 0 0)).lineAnswer = .err ∧
    (at_ .hdrMark .wait 0 0 0).ports.sleepAnswers = .ok 0 :: [] ∧
    (badPorts (at_ .hdrMark .wait 0 0 0)).ports.sleepAnswers = .err 0 :: [] := by decide

theorem witness_HeaderPulses :
    (at_ .hdrMark .emit 0 0 0).pos.phase = .hdrMark ∧ (at_ .hdrMark .wait 1 17 7).pos.phase = .hdrMark ∧
    (at_ .hdrSpace .emit 0 0 0).pos.phase = .hdrSpace ∧ (at_ .hdrSpace .wait 1 17 7).pos.phase = .hdrSpace := by decide

theorem witness_BitMarkPulse :
    (at_ .bitMark .emit 0 0 0).pos.phase = .bitMark ∧ (at_ .bitMark .wait 1 17 7).pos.phase = .bitMark := by decide

theorem witness_BitSpacePulses :
    (at_ .bitSpace .emit 0 0 0).pos.phase = .bitSpace ∧ (exPayload.read 0).getLsbD 2 = false ∧
    (exPayload.read 0).getLsbD 0 = true ∧ (exPayload.read 17).getLsbD 7 = true ∧ (exPayload.read 16).getLsbD 7 = false := by
  decide

/-- Each clause of AfterBitSpace, with the positions of L2-3: within a byte, at its end, at the end of each frame. -/
theorem witness_AfterBitSpace :
    AfterBitSpace (at_ .bitSpace .wait 0 17 6).pos (at_ .bitMark .emit 0 17 7).pos ∧
    AfterBitSpace (at_ .bitSpace .wait 1 16 7).pos (at_ .bitMark .emit 1 17 0).pos ∧
    AfterBitSpace (at_ .bitSpace .wait 0 17 7).pos (at_ .rptMark .emit 0 17 7).pos ∧
    AfterBitSpace (at_ .bitSpace .wait 1 17 7).pos (at_ .done .emit 1 17 7).pos := by
  refine ⟨?_, ?_, ?_, ?_⟩ <;> exact ⟨by decide, by decide, by decide, by decide, by decide⟩

theorem witness_RepeatGapPulses :
    (at_ .rptMark .emit 0 17 7).pos.phase = .rptMark ∧ (at_ .rptSpace .wait 0 17 7).pos.phase = .rptSpace := by decide

theorem witness_PulseAwayFromItsPlace :
    State.reset.pos.kind State.reset.payload ≠ some .hdrMark ∧
    (at_ .bitSpace .emit 0 5 0).pos.kind exPayload ≠ some .oneSpace := by decide

/-- The positions of L2-3 at which clauses meet are legal. -/
theorem legal_last : (at_ .bitSpace .emit 1 17 7).pos.Legal := ⟨by decide, by decide, by decide, by decide, by decide⟩

theorem legal_last_mark : (at_ .bitMark .emit 1 17 7).pos.Legal := ⟨by decide, by decide, by decide, by decide, by decide⟩

theorem legal_gap : (at_ .rptSpace .wait 0 17 7).pos.Legal := ⟨by decide, by decide, by decide, by decide, by decide⟩

theorem witness_NextPulseIsNextIndex :
    (at_ .bitSpace .emit 1 17 7).pos.Legal ∧ (at_ .bitSpace .emit 1 17 7).pos.pidx = some 581 ∧
    (at_ .bitMark .emit 1 17 7).pos.Legal ∧ (at_ .bitMark .emit 1 17 7).pos.pidx = some 580 ∧
    (581 : Fin 582).val = (580 : Fin 582).val + 1 := ⟨legal_last, by decide, legal_last_mark, by decide, by decide⟩

theorem witness_PulseIndexIsUnique :
    (at_ .rptSpace .wait 0 17 7).pos.Legal ∧ (at_ .rptSpace .wait 0 17 7).pos.pidx = some 291 :=
  ⟨legal_gap, by decide⟩

theorem witness_KindFollowsSchedule :
    (at_ .bitSpace .emit 1 17 7).pos.Legal ∧ (at_ .bitSpace .emit 1 17 7).pos.kind exPayload = some .oneSpace ∧
    (at_ .bitSpace .emit 1 17 7).pos.pidx = some 581 := ⟨legal_last, by decide, by decide⟩

/-- ScheduleListsEveryPulse, ScheduleLevelsAlternate, DeadlinesStrictlyIncrease and LevelChangeTimes at their last index. -/
theorem witness_schedule_indices : (292 = 0 ∨ 292 = 292) ∧ 581 < 582 ∧ 581 < (List.replicate 582 0).length :=
  ⟨by decide, by decide, by rw [List.length_replicate]; decide⟩

/-- A space of a transmission of EX, its sleep outstanding and the line low, at any deadline and with any inputs. -/
def spaceState (frame : Fin 2) (b : Fin 18) (i : Fin 8) (t : AbsTime) (ports : Ports) : State :=
  { at_ .bitSpace .wait frame b i with t := t, line := .driven .low, ports := ports }

theorem ex_built : IsBuilt exPayload := ⟨0x20#8, 0x08#8, 0x05#8, 0x30#8, 0x63#8, rfl⟩

theorem spaceState_inv (frame : Fin 2) (b : Fin 18) (i : Fin 8) (t : AbsTime) (ports : Ports) :
    (spaceState frame b i t ports).Inv where
  pos_legal := ⟨fun _ => rfl, fun h => by simp [spaceState, at_] at h, fun h => by simp [spaceState, at_] at h,
    fun h => by simp [spaceState, at_] at h, fun h => by simp [spaceState, at_] at h⟩
  err_iff_failed := ⟨fun h => absurd rfl h, fun h => by simp [spaceState, at_] at h⟩
  fail_pulse := fun h => absurd rfl h
  stage_built := fun _ => ex_built
  payload_built := fun _ => ex_built
  busy_staged := fun _ => rfl
  wait_line := fun k _ h => by
    have h' : some (spaceKind (exPayload.bit b i)) = some k := h
    injection h' with h'
    subst h'
    cases exPayload.bit b i <;> rfl
  emit_line := fun _ h => by simp [spaceState, at_] at h
  done_line := fun h => by simp [spaceState, at_] at h
  stage_wf := by show exPayload.wf = true; decide
  payload_wf := by show exPayload.wf = true; decide

theorem spaceState_on_schedule (frame : Fin 2) (b : Fin 18) (i : Fin 8) (t0 : AbsTime) (ports : Ports) (n : Nat)
    (hn : (at_ .bitSpace .wait frame b i).pos.pulseIndex + 1 = n) :
    (spaceState frame b i (deadlineAfter t0 exPayload n) ports).OnSchedule t0 := by
  subst hn
  refine ⟨fun _ _ h => by simp [spaceState, at_] at h, fun p h _ => ?_, fun h => by simp [spaceState, at_] at h⟩
  have h' : some (⟨_, (at_ .bitSpace .wait frame b i).pos.pulseIndex_lt⟩ : Fin 582) = some p := h
  injection h' with h'
  subst h'
  rfl

/-- A busy state of a run: pulse 3 of EX is running, its sleep outstanding. -/
def busyState (turns : List Turn) (cmd : List Byte) : State :=
  spaceState 0 0 0 (deadlineAfter { sec := 0, nsec := 0 } exPayload 4) { goodPorts with turns := turns, cmd := cmd }

theorem busy_inv (turns : List Turn) (cmd : List Byte) : (busyState turns cmd).Inv := spaceState_inv _ _ _ _ _

theorem busy_on_schedule (turns : List Turn) (cmd : List Byte) : (busyState turns cmd).OnSchedule { sec := 0, nsec := 0 } :=
  spaceState_on_schedule _ _ _ _ _ _ (by decide)

/-- StepKeepsInv, and StepKeepsSchedule: the engine's step, a command's and a reset. -/
theorem witness_StepKeepsInv_StepKeepsSchedule :
    ∃ u v w, (busyState [] []).Inv ∧ (busyState [] []).OnSchedule { sec := 0, nsec := 0 } ∧
      (busyState [] []).busy = true ∧ step (busyState [] []) = .next u ∧
      step (busyState [.command] [0x02#8]) = .next v ∧ step (busyState [.reset] []) = .next w :=
  ⟨_, _, _, busy_inv _ _, busy_on_schedule _ _, by decide, rfl, rfl, rfl⟩

theorem witness_TransmitBeginsOnSchedule :
    ∃ u, staged.busy = false ∧ staged.stageValid = true ∧ staged.ports.lineReady = true ∧
      staged.nowAnswer = some { sec := 10, nsec := 0 } ∧ exec .transmit staged = .next u :=
  ⟨_, by decide, by decide, by decide, by decide, rfl⟩

/-- EX staged and a full transmission's answers, `bad` of them failing at pulse `n`. -/
def ready (n : Nat) (bad : List PortAnswer) : State :=
  { staged with ports := { goodPorts with lineAnswers := List.replicate n .ok ++ bad, sleepAnswers := (List.replicate n 0).map .ok ++ [] } }

theorem witness_TransmissionRunsToDone :
    ∃ u, (ready 582 []).busy = false ∧ (ready 582 []).stageValid = true ∧ (ready 582 []).ports.lineReady = true ∧
      (ready 582 []).nowAnswer = some { sec := 10, nsec := 0 } ∧ (ready 582 []).ports.turns = [] ∧
      (List.replicate 582 0).length = 582 ∧ (ready 582 []).ports.lineAnswers = List.replicate 582 .ok ++ [] ∧
      (ready 582 []).ports.sleepAnswers = (List.replicate 582 0).map .ok ++ [] ∧ exec .transmit (ready 582 []) = .next u :=
  ⟨_, by decide, by decide, by decide, by decide, by decide, List.length_replicate, rfl, rfl, rfl⟩

/-- The source's failure on the 50th pulse (L1-5), and a failure at the first and at the last. -/
theorem witness_FailedSetLevelStopsTransmission :
    ∀ p ∈ ([0, 49, 581] : List (Fin 582)), ∃ u, (ready p.val [.err]).busy = false ∧ (ready p.val [.err]).stageValid = true ∧
      (ready p.val [.err]).ports.lineReady = true ∧ (ready p.val [.err]).nowAnswer = some { sec := 10, nsec := 0 } ∧
      (ready p.val [.err]).ports.turns = [] ∧ (List.replicate p.val 0).length = p.val ∧
      (ready p.val [.err]).ports.lineAnswers = List.replicate p.val .ok ++ .err :: [] ∧
      (ready p.val [.err]).ports.sleepAnswers = (List.replicate p.val 0).map .ok ++ [] ∧
      exec .transmit (ready p.val [.err]) = .next u :=
  fun _ _ => ⟨_, rfl, rfl, rfl, rfl, rfl, List.length_replicate, rfl, rfl, rfl⟩

/-- EX staged, `n` good sleeps and then one that fails. -/
def readySleep (n : Nat) : State :=
  { staged with ports := { goodPorts with
      lineAnswers := List.replicate (n + 1) .ok ++ []
      sleepAnswers := (List.replicate n 0).map .ok ++ .err 1000 :: [] } }

/-- L2-8: a sleep failing at pulse 291, at pulse 581, and at the first. -/
theorem witness_FailedSleepStopsTransmission :
    ∀ p ∈ ([0, 291, 581] : List (Fin 582)), ∃ u, (readySleep p.val).busy = false ∧ (readySleep p.val).stageValid = true ∧
      (readySleep p.val).ports.lineReady = true ∧ (readySleep p.val).nowAnswer = some { sec := 10, nsec := 0 } ∧
      (readySleep p.val).ports.turns = [] ∧ (List.replicate p.val 0).length = p.val ∧
      (readySleep p.val).ports.lineAnswers = List.replicate (p.val + 1) .ok ++ [] ∧
      (readySleep p.val).ports.sleepAnswers = (List.replicate p.val 0).map .ok ++ .err 1000 :: [] ∧
      exec .transmit (readySleep p.val) = .next u :=
  fun _ _ => ⟨_, rfl, rfl, rfl, rfl, rfl, List.length_replicate, rfl, rfl, rfl⟩

/-- PAYLOAD's one writer: a TRANSMIT accepted with another payload staged. -/
theorem witness_PayloadImmutableWhileBusy_writer :
    ∃ u, step (host [.command] [0x02#8]) = .next u ∧ u.payload.read 5 ≠ (host [.command] [0x02#8]).payload.read 5 :=
  ⟨_, rfl, by decide⟩

/-- PayloadImmutableWhileBusy and CommandsDoNotDisturbTransmission: a BUILD during a transmission (P6). -/
theorem witness_PayloadImmutableWhileBusy_CommandsDoNotDisturbTransmission :
    ∃ u, (busyState [.command] [0x01#8, 0x20#8, 0x18#8, 0x0A#8, 0x30#8, 0x40#8]).busy = true ∧
      (busyState [.command] [0x01#8, 0x20#8, 0x18#8, 0x0A#8, 0x30#8, 0x40#8]).nextTurn ≠ .engine ∧
      (busyState [.command] [0x01#8, 0x20#8, 0x18#8, 0x0A#8, 0x30#8, 0x40#8]).nextTurn ≠ .reset ∧
      step (busyState [.command] [0x01#8, 0x20#8, 0x18#8, 0x0A#8, 0x30#8, 0x40#8]) = .next u :=
  ⟨_, by decide, by decide, by decide, rfl⟩

/-- Two states that differ in what the host holds. -/
theorem witness_EngineIgnoresHostRegisters :
    let s := busyState [] []
    let s' := { busyState [.engine] [0x07#8] with stage := [], stageValid := false, hostFault := 0b101#3 }
    ∃ u, s.nextTurn = .engine ∧ s'.nextTurn = .engine ∧ s'.pos = s.pos ∧ (∀ a, s'.payload.read a = s.payload.read a) ∧
      s'.t = s.t ∧ s'.line = s.line ∧ s'.err = s.err ∧ s'.failPulse = s.failPulse ∧ s'.draws = s.draws ∧
      s'.ports.lineAnswers = s.ports.lineAnswers ∧ s'.ports.sleepAnswers = s.ports.sleepAnswers ∧ step s = .next u :=
  ⟨_, rfl, rfl, rfl, fun _ => rfl, rfl, rfl, rfl, rfl, rfl, rfl, rfl, rfl⟩

/-- An error ends the transmission. -/
theorem witness_TransmissionEndsInDoneOrFailed_error :
    ∃ u, (badPorts (busyState [] [])).busy = true ∧ step (badPorts (busyState [] [])) = .next u ∧ u.busy = false ∧
      u.pos.phase = .failed := ⟨_, by decide, rfl, by decide, by decide⟩

/-- The wake of pulse 581 ends it, on its schedule. -/
def lastState : State := spaceState 1 17 7 (deadlineAfter { sec := 0, nsec := 0 } exPayload 582) goodPorts

theorem last_inv : lastState.Inv := spaceState_inv _ _ _ _ _

theorem last_on_schedule : lastState.OnSchedule { sec := 0, nsec := 0 } := spaceState_on_schedule _ _ _ _ _ _ (by decide)

theorem witness_TransmissionEndsInDoneOrFailed_done :
    ∃ u, lastState.Inv ∧ lastState.OnSchedule { sec := 0, nsec := 0 } ∧ lastState.busy = true ∧ step lastState = .next u ∧
      u.busy = false ∧ lastState.pos.pidx = some 581 := ⟨_, last_inv, last_on_schedule, by decide, rfl, by decide, by decide⟩

theorem witness_OnlyTransmitLeavesRest :
    ∃ u, (host [.command] [0x02#8]).busy = false ∧ step (host [.command] [0x02#8]) = .next u ∧
      u.pos ≠ (host [.command] [0x02#8]).pos := ⟨_, by decide, rfl, by decide⟩

theorem witness_StageWriters :
    ∃ u, step (host [.command] [0x01#8, 1#8, 2#8, 3#8, 4#8, 5#8]) = .next u ∧
      u.stage.read 5 ≠ (host [.command] [0x01#8, 1#8, 2#8, 3#8, 4#8, 5#8]).stage.read 5 := ⟨_, rfl, by decide⟩

theorem witness_DeadlineWriters :
    ∃ u v, step (at_ .hdrMark .emit 0 0 0) = .next u ∧ u.t ≠ (at_ .hdrMark .emit 0 0 0).t ∧
      step (host [.command] [0x02#8]) = .next v ∧ v.t ≠ (host [.command] [0x02#8]).t := ⟨_, _, rfl, by decide, rfl, by decide⟩

theorem witness_LineWriters :
    ∃ u v, step (at_ .hdrMark .emit 0 0 0) = .next u ∧ u.line ≠ (at_ .hdrMark .emit 0 0 0).line ∧
      step (badPorts { at_ .hdrSpace .emit 0 0 0 with line := .driven .high }) = .next v ∧ v.line ≠ .driven .high :=
  ⟨_, _, rfl, by decide, rfl, by decide⟩

/-- The case UnknownLineKeepsItsLevel leaves out needs a pulse: at rest an `err` answer listed next is no failed `SetLevel`. -/
theorem witness_UnknownLineKeepsItsLevel_rest :
    ∃ u, step (badPorts State.reset) = .next u ∧ (badPorts State.reset).line = .unknown ∧ u.line = .unknown ∧
      (badPorts State.reset).lineAnswer = .err ∧ (badPorts State.reset).pos.kind (badPorts State.reset).payload = none :=
  ⟨_, rfl, by decide, by decide, by decide, by decide⟩

theorem witness_UnknownLineKeepsItsLevel :
    ∃ u, step (host [.command] [0x02#8]) = .next u ∧ (host [.command] [0x02#8]).line = .unknown ∧ u.line = .unknown :=
  ⟨_, rfl, by decide, by decide⟩

/-- StepEvents: a pulse's two requests, a wake, an accepted TRANSMIT; NowOnlyAtTransmit: the last of them. -/
theorem witness_StepEvents_NowOnlyAtTransmit :
    ∃ u v w, step (at_ .hdrMark .emit 0 0 0) = .next u ∧ u.trace.length = 2 ∧ step lastState = .next v ∧
      v.trace.length = 1 ∧ step (host [.command] [0x02#8]) = .next w ∧ w.trace.length = 2 :=
  ⟨_, _, _, rfl, by decide, rfl, by decide, rfl, by decide⟩

/-- A change of LINE_READY during a transmission, and with none running. -/
theorem witness_LineReadyTurn :
    (busyState [.lineReady false] []).nextTurn = .lineReady false ∧ (host [.lineReady true] []).nextTurn = .lineReady true ∧
    (host [.lineReady true] []).busy = false := by decide

end Sys2Proof.Tests
end

section
namespace Sys2Proof.Machine

/-! ### Times and `AddUs` (spec/00_scope.md R14) -/

/-- The formula of R14, the seconds. -/
theorem addUs_sec (t : AbsTime) (d : Nat) :
    (addUs t d).sec = t.sec + (t.nsec.val + d * 1000) / 1000000000 := rfl

/-- The formula of R14, the nanoseconds within the second. -/
theorem addUs_nsec (t : AbsTime) (d : Nat) :
    (addUs t d).nsec.val = (t.nsec.val + d * 1000) % 1000000000 := rfl

theorem addUs_ns (t : AbsTime) (d : Nat) : (addUs t d).ns = t.ns + d * 1000 := addNs_ns t (d * 1000)

/-- `nsec` stays below one second, so an earlier `sec` outweighs any `nsec`. -/
theorem AbsTime.ns_lt_ns_iff (t u : AbsTime) :
    t.ns < u.ns ↔ t.sec < u.sec ∨ (t.sec = u.sec ∧ t.nsec.val < u.nsec.val) := by
  have ht : t.nsec.val < 1000000000 := t.nsec.isLt
  have hu : u.nsec.val < 1000000000 := u.nsec.isLt
  simp only [AbsTime.ns]
  omega

theorem AbsTime.eq_iff_ns_eq (t u : AbsTime) : t = u ↔ t.ns = u.ns :=
  ⟨congrArg AbsTime.ns, AbsTime.ext_ns⟩

/-- Settles O26: the formula holds by definition, and the nanosecond value decides the order and the equality of times
because `nsec` is normalised. -/
theorem addUsExact : Obligations.AddUsExact :=
  ⟨fun t d => ⟨addUs_sec t d, addUs_nsec t d, addUs_ns t d⟩, AbsTime.ns_lt_ns_iff, AbsTime.eq_iff_ns_eq⟩

end Sys2Proof.Machine
end

section
namespace Sys2Proof.Machine

/-! ### The fields of STATUS (spec/10_state.md R35)

STATUS is its fields appended, so a field is found by leaving off the ones below it (`extractLsb'_append_eq_of_le`) and
then the ones above it (`extractLsb'_append_eq_right`). -/

section
variable (s : State)

@[simp] theorem State.status_phase : s.status.extractLsb' 0 4 = s.pos.phase.code :=
  BitVec.extractLsb'_append_eq_right

@[simp] theorem State.status_sub : s.status.extractLsb' 4 1 = s.pos.sub.code := by
  simp (disch := decide) only [State.status, BitVec.extractLsb'_append_eq_of_le, Nat.reduceSub,
    BitVec.extractLsb'_append_eq_right]

@[simp] theorem State.status_frame : s.status.extractLsb' 5 1 = BitVec.ofNat 1 s.pos.frame.val := by
  simp (disch := decide) only [State.status, BitVec.extractLsb'_append_eq_of_le, Nat.reduceSub,
    BitVec.extractLsb'_append_eq_right]

@[simp] theorem State.status_byteIdx : s.status.extractLsb' 6 5 = BitVec.ofNat 5 s.pos.byteIdx.val := by
  simp (disch := decide) only [State.status, BitVec.extractLsb'_append_eq_of_le, Nat.reduceSub,
    BitVec.extractLsb'_append_eq_right]

@[simp] theorem State.status_bitIdx : s.status.extractLsb' 11 3 = BitVec.ofNat 3 s.pos.bitIdx.val := by
  simp (disch := decide) only [State.status, BitVec.extractLsb'_append_eq_of_le, Nat.reduceSub,
    BitVec.extractLsb'_append_eq_right]

@[simp] theorem State.status_err : s.status.extractLsb' 14 2 = s.err.code := by
  simp (disch := decide) only [State.status, BitVec.extractLsb'_append_eq_of_le, Nat.reduceSub,
    BitVec.extractLsb'_append_eq_right]

@[simp] theorem State.status_failPulse : s.status.extractLsb' 16 10 = failPulseCode s.failPulse := by
  simp (disch := decide) only [State.status, BitVec.extractLsb'_append_eq_of_le, Nat.reduceSub,
    BitVec.extractLsb'_append_eq_right]

@[simp] theorem State.status_hostFault : s.status.extractLsb' 26 3 = s.hostFault := by
  simp (disch := decide) only [State.status, BitVec.extractLsb'_append_eq_of_le, Nat.reduceSub,
    BitVec.extractLsb'_append_eq_right]

@[simp] theorem State.status_stageValid : s.status.extractLsb' 29 1 = BitVec.ofBool s.stageValid := by
  simp (disch := decide) only [State.status, BitVec.extractLsb'_append_eq_of_le, Nat.reduceSub,
    BitVec.extractLsb'_append_eq_right]

@[simp] theorem State.status_busy : s.status.extractLsb' 30 1 = BitVec.ofBool s.busy := by
  simp (disch := decide) only [State.status, BitVec.extractLsb'_append_eq_of_le, Nat.reduceSub,
    BitVec.extractLsb'_append_eq_right]

@[simp] theorem State.status_reserved : s.status.extractLsb' 31 1 = 0#1 := by
  simp (disch := decide) only [State.status, BitVec.extractLsb'_append_eq_of_le, Nat.reduceSub,
    BitVec.extractLsb'_eq_self]

end

/-- Settles O25: each clause reads one field of STATUS and evaluates its code; an index fits its field by its type. -/
theorem statusWordLayout : Obligations.StatusWordLayout := by
  intro s
  refine ⟨?phase, ?sub, ?frame, ?byteIdx, ?bitIdx, ?err, ?failPulse, s.status_hostFault, ?stageValid, ?busy, ?reserved⟩
  case phase => rw [s.status_phase]; cases s.pos.phase <;> rfl
  case sub => rw [BitVec.getLsbD_eq_extractLsb', s.status_sub]; cases s.pos.sub <;> rfl
  case frame =>
    have frameBit : ∀ f : Fin 2, (BitVec.ofNat 1 f.val == 1#1) = decide (f = 1) := by decide
    rw [BitVec.getLsbD_eq_extractLsb', s.status_frame, frameBit]
  case byteIdx =>
    rw [s.status_byteIdx]
    exact Nat.mod_eq_of_lt (s.pos.byteIdx.isLt.trans (by decide))
  case bitIdx =>
    rw [s.status_bitIdx]
    exact Nat.mod_eq_of_lt s.pos.bitIdx.isLt
  case err => rw [s.status_err]; cases s.err <;> rfl
  case failPulse =>
    rw [s.status_failPulse]
    cases s.failPulse with
    | none => rfl
    | some p => exact Nat.mod_eq_of_lt (p.isLt.trans (by decide))
  case stageValid => rw [BitVec.getLsbD_eq_extractLsb', s.status_stageValid]; cases s.stageValid <;> rfl
  case busy => rw [BitVec.getLsbD_eq_extractLsb', s.status_busy]; cases s.busy <;> rfl
  case reserved => rw [BitVec.getLsbD_eq_extractLsb', s.status_reserved]; rfl

/-! ### The registers after reset (spec/10_state.md R40) -/

/-- STATUS after reset, derived from the registers alone, whatever the stores, the inputs and the trace hold. -/
theorem State.status_of_reset_registers {s : State} (hpos : s.pos = Pos.reset) (hvalid : s.stageValid = false)
    (herr : s.err = .none) (hpulse : s.failPulse = none) (hfault : s.hostFault = 0#3) : s.status = 0x03FF0000#32 := by
  simp only [State.status, State.busy, hpos, hvalid, herr, hpulse, hfault]
  rfl

/-- The line's level while `LINE` is UNKNOWN (R30). -/
@[simp] theorem State.lineLevel_of_unknown {s : State} (h : s.line = .unknown) :
    s.lineLevel = Config.lineLevelDraw s.lineDraw := by
  simp only [State.lineLevel, h]

/-- Settles O9: each register is read off the reset state, STATUS follows from them, and the line, UNKNOWN, is at draw 0,
which is LINE_INIT. -/
theorem resetRegisterValues : Obligations.ResetRegisterValues :=
  ⟨rfl, rfl, rfl, rfl, rfl, rfl, State.status_of_reset_registers rfl rfl rfl rfl rfl, State.lineLevel_of_unknown rfl⟩

end Sys2Proof.Machine
end

section
namespace Sys2Proof.Machine

/-! ### The schedule, pulse by pulse (spec/20_memory.md R53; spec/30_encoding.md R72, R74, R75) -/

section
variable (m : Memory)

@[simp] theorem transmission_length : (transmission m).length = 582 := by
  rw [transmission, List.length_append, List.length_append, frameOf_length]; rfl

@[simp] theorem schedule_length : (schedule m).length = 582 := by
  rw [schedule, List.length_map, transmission_length]

/-- The space of a bit is low, and its duration tells the bit (R72, R74). -/
theorem pulse_spaceKind (v : Bool) :
    (levelOf (spaceKind v), durationOf (spaceKind v)) = (.low, if v then 1300 else 420) := by
  cases v <;> rfl

/-- The two frames begin at pulses 0 and 292. -/
theorem transmission_frame {base : Nat} (hbase : base = 0 ∨ base = 292) {n : Nat} (hn : n < 290) :
    (transmission m)[base + n]? = (frameOf m)[n]? := by
  obtain rfl | rfl := hbase
  · rw [Nat.zero_add, transmission_first m hn]
  · exact transmission_second m n

/-- Pulse `290 + n` of a transmission, between the frames, is pulse `n` of the repeat gap. -/
theorem transmission_gap {n : Nat} (hn : n < 2) : (transmission m)[290 + n]? = repeatGap[n]? := by
  have hlen : 290 + n < (frameOf m ++ repeatGap).length := by
    rw [List.length_append, frameOf_length]; exact Nat.add_lt_add_left hn 290
  rw [transmission, List.getElem?_append_left hlen, List.getElem?_append_right (by simp), frameOf_length,
    Nat.add_sub_cancel_left]

variable {m}

/-- A pulse of the schedule is the level and duration of its kind (R129). -/
theorem schedule_get {p : Nat} {k : PulseKind} (h : (transmission m)[p]? = some k) :
    (schedule m)[p]? = some (levelOf k, durationOf k) := by
  rw [schedule, List.getElem?_map, h, Option.map_some]

/-- Pulse `n` of a frame, in either frame of the schedule. -/
theorem schedule_frame {base : Nat} (hbase : base = 0 ∨ base = 292) {n : Nat} {k : PulseKind} (hn : n < 290)
    (h : (frameOf m)[n]? = some k) : (schedule m)[base + n]? = some (levelOf k, durationOf k) :=
  schedule_get ((transmission_frame m hbase hn).trans h)

end

/-- Settles O29: each pulse is found by its place in its frame or in the gap, and there the grammar names its kind. -/
theorem scheduleListsEveryPulse : Obligations.ScheduleListsEveryPulse := by
  intro m
  refine ⟨schedule_length m, fun base hbase => ⟨?hdrMark, ?hdrSpace, fun b i => ⟨?bitMark, ?bitSpace⟩⟩, ?rptMark, ?rptSpace⟩
  case hdrMark => exact schedule_frame (n := 0) hbase (by decide) rfl
  case hdrSpace => exact schedule_frame (n := 1) hbase (by decide) rfl
  case bitMark =>
    rw [Nat.add_assoc]
    exact schedule_frame hbase (by omega) (frameOf_mark m b i)
  case bitSpace =>
    rw [Nat.add_assoc, schedule_frame hbase (by omega) (frameOf_space m b i), pulse_spaceKind, Memory.bit]
  case rptMark => exact schedule_get (transmission_gap m (n := 0) (by decide))
  case rptSpace => exact schedule_get (transmission_gap m (n := 1) (by decide))

end Sys2Proof.Machine
end

section
namespace Sys2Proof

/-! ### Reading a command (spec/30_encoding.md R76, R77, R79, R80) -/

@[simp] theorem decodeCommand_build (p m t f v : Byte) (rest : List Byte) :
    decodeCommand (0x01#8 :: p :: m :: t :: f :: v :: rest) = .ok (.build p m t f v, rest) := rfl

/-- A BUILD is no command before its five operand bytes have all arrived (R80). -/
theorem decodeCommand_build_short {rest : List Byte} (h : rest.length < 5) :
    decodeCommand (0x01#8 :: rest) = .error .operandsMissing := by
  match rest, h with
  | [], _ | [_], _ | [_, _], _ | [_, _, _], _ | [_, _, _, _], _ => rfl
  | _ :: _ :: _ :: _ :: _ :: _, h => simp only [List.length_cons] at h; omega

@[simp] theorem decodeCommand_transmit (rest : List Byte) : decodeCommand (0x02#8 :: rest) = .ok (.transmit, rest) := rfl

theorem decodeCommand_reserved {op : Byte} (hbuild : op ≠ 0x01#8) (htransmit : op ≠ 0x02#8) (rest : List Byte) :
    decodeCommand (op :: rest) = .ok (.reserved op, rest) := by
  simp only [decodeCommand, if_neg hbuild, if_neg htransmit]

/-! ### Pulse kinds and their codes (spec/30_encoding.md R73) -/

theorem decode_pulse_seven : decode (.pulse 7#3) = .ok .unusedPulseKind := rfl

theorem PulseKind.instr_ne_unusedPulseKind (k : PulseKind) : k.instr ≠ .unusedPulseKind := by
  cases k <;> exact Instr.noConfusion

end Sys2Proof

namespace Sys2Proof.Machine

/-- The engine fetches kinds only, so never the instruction of code 7 (R73, R123). -/
theorem State.fetchPulse_ne_unusedPulseKind (s : State) : s.fetchPulse ≠ some .unusedPulseKind := by
  rw [State.fetchPulse_eq]
  intro h
  obtain ⟨k, -, hk⟩ := Option.map_eq_some_iff.mp h
  exact k.instr_ne_unusedPulseKind hk

/-- Settles O2: the opcode byte picks the case, and only BUILD's looks at the bytes after it. -/
theorem commandLengthFromOpcode : Obligations.CommandLengthFromOpcode := by
  intro op rest
  refine ⟨?build, ?short, ?transmit, fun hbuild htransmit => decodeCommand_reserved hbuild htransmit rest⟩
  case build => rintro rfl p m t f v rest' rfl; exact decodeCommand_build p m t f v rest'
  case short => rintro rfl h; exact decodeCommand_build_short h
  case transmit => rintro rfl; exact decodeCommand_transmit rest

/-- Settles O23: the table is seven computed rows; code 7 decodes to an instruction that no kind stands for, and the
sequencer answers kinds only. -/
theorem pulseKindTable : Obligations.PulseKindTable := by
  refine ⟨?table, fun k => ?seven, State.fetchPulse_ne_unusedPulseKind⟩
  case table => decide
  case seven =>
    rw [decode_pulse_seven]
    exact fun h => k.instr_ne_unusedPulseKind (Except.ok.inj h).symm

/-- Settles O24: the arm of code 7 reads nothing of the state. -/
theorem unusedKindStops : Obligations.UnusedKindStops := fun _ => rfl

end Sys2Proof.Machine
end

section
namespace Sys2Proof.Machine

/-! ### The Payload Builder (spec/40_payload_builder.md R100 to R103) -/

@[simp] theorem State.observe_events (s : State) (e : PortEvent) : (s.observe e).events = s.events ++ [e] := by
  simp only [State.events, State.observe_trace, List.map_cons, List.reverse_cons]

/-- Writing 18 bytes from index 0 on replaces a store whole. -/
theorem Memory.bytes_writeBytes (m : Memory) {bs : List Byte} (h : bs.length = 18) : (m.writeBytes 0 bs).bytes = bs := by
  refine List.ext_getElem (by simp [Memory.bytes, h]) fun a _ ha => ?_
  simp [Memory.bytes, Memory.read_writeBytes, ha]

/-- The checksum, one reduction of an unbounded sum (R102), is the sum with 8-bit wraparound. -/
theorem checksum_eq_sum (bs : List Byte) : checksum bs = bs.sum := by
  induction bs with
  | nil => rfl
  | cons b bs ih =>
    calc checksum (b :: bs) = b + checksum bs := by
          simp only [checksum, List.map_cons, List.sum_cons, BitVec.ofNat_add, BitVec.ofNat_toNat, BitVec.setWidth_eq]
      _ = (b :: bs).sum := by rw [ih, List.sum_cons]

section
variable (p m t f v : Byte)

/-- STAGE after a BUILD, in index order, is R101's list. -/
theorem buildPayload_bytes : (buildPayload p m t f v).bytes = payloadBytes p m t f v :=
  Memory.bytes_writeBytes [] rfl

/-- Byte 17 is the checksum of the bytes before it. -/
theorem buildPayload_read_checksum : (buildPayload p m t f v).read 17 = checksum (payloadHead p m t f v) := by
  rw [buildPayload, Memory.read_writeBytes, if_pos (Nat.zero_le 17)]
  rfl

/-- The fixed bytes and the operands in the sum of R102. -/
theorem checksum_payloadHead_mod : checksum (payloadHead p m t f v) =
    BitVec.ofNat 8 ((0x23 + 0xCB + 0x26 + 0x01 + p.toNat + m.toNat + t.toNat + f.toNat + v.toNat) % 256) := by
  have hsum : ((payloadHead p m t f v).map BitVec.toNat).sum =
      0x23 + 0xCB + 0x26 + 0x01 + p.toNat + m.toNat + t.toNat + f.toNat + v.toNat := by
    simp [payloadHead, Config.magic]; omega
  rw [checksum, hsum]
  exact BitVec.eq_of_toNat_eq (by simp only [BitVec.toNat_ofNat, Nat.reducePow, Nat.mod_mod])

/-- MAGIC adds 0x15 and the zero bytes nothing (R103). -/
theorem checksum_payloadHead : checksum (payloadHead p m t f v) = 0x15#8 + p + m + t + f + v := by
  have hmagic : Config.magic.sum = 0x15#8 := by decide
  have hzero (n : Nat) : (List.replicate n 0x00#8).sum = 0x00#8 := by simp
  simp only [checksum_eq_sum, payloadHead, List.sum_append, hmagic, hzero, List.sum_cons, List.sum_nil, add_zero,
    BitVec.add_zero, add_assoc]

end

/-- Settles O11: BUILD is one record update and one trace entry, and the update leaves the 18 bytes of R101. -/
theorem buildLatchesPayload : Obligations.BuildLatchesPayload := by
  intro p m t f v s
  refine ⟨_, exec_build p m t f v s, ?bytes, State.observe_stageValid .., ?payload, State.observe_pos ..,
    State.observe_t .., State.observe_line .., State.observe_err .., State.observe_failPulse ..,
    State.observe_hostFault .., State.observe_ports .., ?events⟩
  case bytes =>
    rw [State.observe_stage, buildPayload_bytes, payloadBytes, checksum_payloadHead_mod]
    rfl
  case payload => exact fun a => congrArg (Memory.read · a) (State.observe_payload ..)
  case events => exact State.observe_events ..

/-- Settles O12: byte 17 is the checksum, which is a sum with wraparound, and the fixed bytes sum to 0x15. -/
theorem buildChecksumReduces : Obligations.BuildChecksumReduces := fun p m t f v =>
  (buildPayload_read_checksum p m t f v).trans (checksum_payloadHead p m t f v)

end Sys2Proof.Machine
end

section
namespace Sys2Proof.Machine

/-! ### Where the sequencer is, phase by phase (spec/41_pulse_transmitter.md R122, R124, R130) -/

section
variable {p : Pos}

theorem Pos.pulseIndex_hdrMark (h : p.phase = .hdrMark) : p.pulseIndex = p.frameBase := by
  simp only [Pos.pulseIndex, h]

theorem Pos.pulseIndex_hdrSpace (h : p.phase = .hdrSpace) : p.pulseIndex = p.frameBase + 1 := by
  simp only [Pos.pulseIndex, h]

theorem Pos.pulseIndex_bitMark (h : p.phase = .bitMark) :
    p.pulseIndex = p.frameBase + 2 + 2 * (8 * p.byteIdx.val + p.bitIdx.val) := by
  simp only [Pos.pulseIndex, h]

theorem Pos.pulseIndex_bitSpace (h : p.phase = .bitSpace) :
    p.pulseIndex = p.frameBase + 3 + 2 * (8 * p.byteIdx.val + p.bitIdx.val) := by
  simp only [Pos.pulseIndex, h]

theorem Pos.pulseIndex_rptMark (h : p.phase = .rptMark) : p.pulseIndex = 290 := by
  simp only [Pos.pulseIndex, h]

theorem Pos.pulseIndex_rptSpace (h : p.phase = .rptSpace) : p.pulseIndex = 291 := by
  simp only [Pos.pulseIndex, h]

theorem Pos.frameBase_cases (p : Pos) : p.frameBase = 0 ∨ p.frameBase = 292 := by
  unfold Pos.frameBase
  split
  · exact .inl rfl
  · exact .inr rfl

theorem Pos.pidx_eq_some_of_phase {ph : Phase} {n : Fin 582} (h : p.phase = ph) (hpulse : ph.isPulse = true)
    (hn : p.pulseIndex = n.val) : p.pidx = some n :=
  Pos.pidx_eq_some.mpr ⟨h ▸ hpulse, hn⟩

theorem Pos.pidx_hdrMark (h : p.phase = .hdrMark) : p.pidx = some (if p.frame = 0 then 0 else 292) := by
  refine Pos.pidx_eq_some_of_phase h rfl ?_
  rw [Pos.pulseIndex_hdrMark h, Pos.frameBase]
  split <;> rfl

theorem Pos.pidx_hdrSpace (h : p.phase = .hdrSpace) : p.pidx = some (if p.frame = 0 then 1 else 293) := by
  refine Pos.pidx_eq_some_of_phase h rfl ?_
  rw [Pos.pulseIndex_hdrSpace h, Pos.frameBase]
  split <;> rfl

theorem Pos.pidx_rptMark (h : p.phase = .rptMark) : p.pidx = some 290 :=
  Pos.pidx_eq_some_of_phase h rfl (Pos.pulseIndex_rptMark h)

theorem Pos.pidx_rptSpace (h : p.phase = .rptSpace) : p.pidx = some 291 :=
  Pos.pidx_eq_some_of_phase h rfl (Pos.pulseIndex_rptSpace h)

theorem Pos.next_hdrMark (h : p.phase = .hdrMark) : p.next = { p with phase := .hdrSpace } := by
  simp only [Pos.next, h]

theorem Pos.next_hdrSpace (h : p.phase = .hdrSpace) :
    p.next = { p with phase := .bitMark, byteIdx := 0, bitIdx := 0 } := by
  simp only [Pos.next, h]

theorem Pos.next_bitMark (h : p.phase = .bitMark) : p.next = { p with phase := .bitSpace } := by
  simp only [Pos.next, h]

theorem Pos.next_rptMark (h : p.phase = .rptMark) :
    p.next = { p with phase := .rptSpace, frame := 0, byteIdx := 17, bitIdx := 7 } := by
  simp only [Pos.next, h]

theorem Pos.next_rptSpace (h : p.phase = .rptSpace) :
    p.next = { p with phase := .hdrMark, frame := 1, byteIdx := 17, bitIdx := 7 } := by
  simp only [Pos.next, h]

/-- The four ways on from a bit's space (R124). -/
theorem Pos.next_bitSpace (h : p.phase = .bitSpace) : AfterBitSpace p { p.next with sub := .emit } := by
  refine ⟨rfl, fun hi => ?bit, fun hi hb => ?byte, fun hi hb hf => ?gap, fun hi hb hf => ?done⟩
  case bit => simp [Pos.next, h, hi]
  case byte => simp [Pos.next, h, hi, hb]
  case gap => simp [Pos.next, h, hi, hb, hf]
  case done => simp [Pos.next, h, hi, hb, hf]

variable {m : Memory}

theorem Pos.kind_hdrMark (h : p.phase = .hdrMark) : p.kind m = some .hdrMark := by simp only [Pos.kind, h]

theorem Pos.kind_hdrSpace (h : p.phase = .hdrSpace) : p.kind m = some .hdrSpace := by simp only [Pos.kind, h]

theorem Pos.kind_bitMark (h : p.phase = .bitMark) : p.kind m = some .bitMark := by simp only [Pos.kind, h]

theorem Pos.kind_bitSpace (h : p.phase = .bitSpace) : p.kind m = some (spaceKind (m.bit p.byteIdx p.bitIdx)) := by
  simp only [Pos.kind, h]

theorem Pos.kind_rptMark (h : p.phase = .rptMark) : p.kind m = some .rptMark := by simp only [Pos.kind, h]

theorem Pos.kind_rptSpace (h : p.phase = .rptSpace) : p.kind m = some .rptSpace := by simp only [Pos.kind, h]

/-- The grammar's pulse at a position's index is of the position's kind (R129), by the position's place in its frame or in
the gap. -/
theorem transmission_pulseIndex (h : p.phase.isPulse = true) : (transmission m)[p.pulseIndex]? = p.kind m := by
  have hbase := p.frameBase_cases
  cases hp : p.phase with
  | hdrMark =>
    rw [Pos.pulseIndex_hdrMark hp, Pos.kind_hdrMark hp]
    exact transmission_frame m hbase (n := 0) (by decide)
  | hdrSpace =>
    rw [Pos.pulseIndex_hdrSpace hp, Pos.kind_hdrSpace hp]
    exact transmission_frame m hbase (n := 1) (by decide)
  | bitMark =>
    rw [Pos.pulseIndex_bitMark hp, Pos.kind_bitMark hp, Nat.add_assoc, transmission_frame m hbase (by omega), frameOf_mark]
  | bitSpace =>
    rw [Pos.pulseIndex_bitSpace hp, Pos.kind_bitSpace hp, Nat.add_assoc, transmission_frame m hbase (by omega),
      frameOf_space]
  | rptMark =>
    rw [Pos.pulseIndex_rptMark hp, Pos.kind_rptMark hp]
    exact transmission_gap m (n := 0) (by decide)
  | rptSpace =>
    rw [Pos.pulseIndex_rptSpace hp, Pos.kind_rptSpace hp]
    exact transmission_gap m (n := 1) (by decide)
  | idle | done | failed => rw [hp] at h; contradiction

end

/-- Settles O31: the schedule maps the grammar's kinds, and the kind at a position is the grammar's at its index; that holds
of every position with an index, legal or not. -/
theorem kindFollowsSchedule : Obligations.KindFollowsSchedule := by
  intro m
  refine ⟨rfl, schedule_length m, fun p k n _ hk hn => schedule_get ?_⟩
  obtain ⟨hpulse, hn⟩ := Pos.pidx_eq_some.mp hn
  rw [← hn, transmission_pulseIndex hpulse, hk]

end Sys2Proof.Machine
end

section
namespace Sys2Proof.Machine

/-! ### The levels alternate (spec/41_pulse_transmitter.md R137)

Every element of the grammar is a mark followed by a space, so the levels of a transmission are 291 pairs of high and low. -/

/-- The levels of `n` marks, each followed by its space. -/
def markSpaceLevels (n : Nat) : List Level := (List.replicate n [Level.high, Level.low]).flatten

@[simp] theorem markSpaceLevels_succ (n : Nat) : markSpaceLevels (n + 1) = .high :: .low :: markSpaceLevels n := rfl

theorem markSpaceLevels_add (a b : Nat) : markSpaceLevels (a + b) = markSpaceLevels a ++ markSpaceLevels b := by
  simp only [markSpaceLevels, List.replicate_add, List.flatten_append]

theorem markSpaceLevels_get {n p : Nat} (h : p < 2 * n) :
    (markSpaceLevels n)[p]? = some (if p % 2 = 0 then .high else .low) := by
  induction n generalizing p with
  | zero => omega
  | succ n ih =>
    match p with
    | 0 | 1 => rfl
    | p + 2 =>
      rw [markSpaceLevels_succ, List.getElem?_cons_succ, List.getElem?_cons_succ, ih (by omega), Nat.add_mod_right]

theorem bitPulses_levels (bits : List Bool) : (bits.flatMap bitSym).map levelOf = markSpaceLevels bits.length := by
  induction bits with
  | nil => rfl
  | cons v bits ih =>
    rw [List.flatMap_cons, List.map_append, ih]
    cases v <;> rfl

section
variable (m : Memory)

theorem frameOf_levels : (frameOf m).map levelOf = markSpaceLevels 145 := by
  rw [frameOf, List.map_append, bitPulses_levels, wireBits_length]; rfl

theorem transmission_levels : (transmission m).map levelOf = markSpaceLevels 291 := by
  rw [transmission, List.map_append, List.map_append, frameOf_levels, markSpaceLevels_add 146 145,
    markSpaceLevels_add 145 1]
  rfl

theorem pulseLevel_eq (p : Nat) : pulseLevel m p = ((transmission m).map levelOf)[p]?.getD .low := by
  rw [pulseLevel, schedule, List.getElem?_map, List.getElem?_map]
  cases (transmission m)[p]? <;> rfl

theorem pulseLevel_of_lt {p : Nat} (hp : p < 582) : pulseLevel m p = if p % 2 = 0 then .high else .low := by
  rw [pulseLevel_eq, transmission_levels, markSpaceLevels_get hp, Option.getD_some]

end

/-- Settles O30: the level of a pulse is told by the parity of its index, and consecutive indices differ in it. -/
theorem scheduleLevelsAlternate : Obligations.ScheduleLevelsAlternate := by
  intro m p hp
  refine ⟨pulseLevel_of_lt m hp, fun hp' => ?_⟩
  rw [pulseLevel_of_lt m hp, pulseLevel_of_lt m hp']
  obtain h | h := Nat.mod_two_eq_zero_or_one p
  · simp [h, Nat.add_mod]
  · simp [h, Nat.add_mod]

end Sys2Proof.Machine
end

section
namespace Sys2Proof.Machine

/-! ### The nominal length (spec/41_pulse_transmitter.md R136) -/

/-- The sum of the durations of some pulses, in microseconds. -/
def totalDuration (ks : List PulseKind) : Nat := (ks.map durationOf).sum

@[simp] theorem totalDuration_append (ks ls : List PulseKind) :
    totalDuration (ks ++ ls) = totalDuration ks + totalDuration ls := by
  simp only [totalDuration, List.map_append, List.sum_append]

theorem totalDuration_zeroBit :
    totalDuration (bitSym false) = Config.protocol.bitMark + Config.protocol.zeroSpace := rfl

theorem totalDuration_oneBit :
    totalDuration (bitSym true) = Config.protocol.bitMark + Config.protocol.oneSpace := rfl

theorem totalDuration_bitPulses (bits : List Bool) : totalDuration (bits.flatMap bitSym) =
    bits.length * Config.protocol.bitMark + bits.count false * Config.protocol.zeroSpace
      + bits.count true * Config.protocol.oneSpace := by
  induction bits with
  | nil => rfl
  | cons v bits ih =>
    rw [List.flatMap_cons, totalDuration_append, ih, List.length_cons]
    cases v with
    | false => rw [totalDuration_zeroBit, List.count_cons_self, List.count_cons_of_ne (by decide)]; ring
    | true => rw [totalDuration_oneBit, List.count_cons_self, List.count_cons_of_ne (by decide)]; ring

section
variable (m : Memory)

theorem pulseDuration_eq (p : Nat) : pulseDuration m p = totalDuration (transmission m)[p]?.toList := by
  rw [pulseDuration, schedule, List.getElem?_map]
  cases (transmission m)[p]? <;> rfl

/-- The offset after `n` pulses is the length of the first `n` pulses of the grammar. -/
theorem offsetAfter_eq (n : Nat) : offsetAfter m n = totalDuration ((transmission m).take n) := by
  induction n with
  | zero => rfl
  | succ n ih => rw [offsetAfter, ih, pulseDuration_eq, List.take_add_one, totalDuration_append]

theorem zeros_add_ones : (wireBits m).count false + onesOf m = 144 := by
  rw [onesOf, ← wireBits_length m]
  exact List.count_not_add_count _ true

theorem totalDuration_frameOf : totalDuration (frameOf m) =
    Config.protocol.hdrMark + Config.protocol.hdrSpace + 144 * Config.protocol.bitMark
      + (wireBits m).count false * Config.protocol.zeroSpace + onesOf m * Config.protocol.oneSpace := by
  have hheader : totalDuration [.hdrMark, .hdrSpace] = Config.protocol.hdrMark + Config.protocol.hdrSpace := rfl
  rw [frameOf, totalDuration_append, hheader, totalDuration_bitPulses, wireBits_length, onesOf]
  ring

theorem totalDuration_repeatGap : totalDuration repeatGap = Config.protocol.rptMark + Config.protocol.rptSpace := rfl

theorem offsetAfter_firstFrame : offsetAfter m 290 = totalDuration (frameOf m) := by
  rw [offsetAfter_eq, transmission, List.append_assoc, List.take_left' (frameOf_length m)]

theorem offsetAfter_gap : offsetAfter m 292 = totalDuration (frameOf m) + totalDuration repeatGap := by
  have hlen : (frameOf m ++ repeatGap).length = 292 := by rw [List.length_append, frameOf_length]; rfl
  rw [offsetAfter_eq, transmission, List.take_left' hlen, totalDuration_append]

theorem offsetAfter_all : offsetAfter m 582 = 2 * totalDuration (frameOf m) + totalDuration repeatGap := by
  rw [offsetAfter_eq, List.take_of_length_le (transmission_length m).le, transmission, totalDuration_append,
    totalDuration_append]
  ring

end

/-- Settles O32: a transmission is two frames and the gap, and a frame's length counts its one and zero bits, 144 together. -/
theorem nominalLength : Obligations.NominalLength := by
  intro m
  have hbits := zeros_add_ones m
  have hzeros : 288 - 2 * onesOf m = 2 * (wireBits m).count false := by omega
  rw [offsetAfter_all, offsetAfter_gap, offsetAfter_firstFrame, totalDuration_frameOf, totalDuration_repeatGap, hzeros]
  refine ⟨by ring, ?total, ?frame, rfl, by omega⟩
  case total => simp only [Config.protocol]; omega
  case frame => simp only [Config.protocol]; omega

end Sys2Proof.Machine
end

section
namespace Sys2Proof.Machine

/-! ### The trace across the updates of a pulse -/

section
variable (s : State)

@[simp] theorem State.lineAnswered_events : s.lineAnswered.events = s.events := by
  rw [State.events, State.lineAnswered_trace, State.events]

@[simp] theorem State.sleepAnswered_events : s.sleepAnswered.events = s.events := rfl
@[simp] theorem State.emitOk_events (k : PulseKind) : (s.emitOk k).events = s.events := rfl
@[simp] theorem State.loseLine_events : s.loseLine.events = s.events := rfl
@[simp] theorem State.advance_events : s.advance.events = s.events := rfl
@[simp] theorem State.raiseError_events (e : TxError) (i : Option (Fin 582)) : (s.raiseError e i).events = s.events := rfl

end

/-! ### A pulse's two halves, each with both answers (spec/41_pulse_transmitter.md R125, R126) -/

/-- Both halves of a pulse of level `v`, `us` microseconds and index `n`, with `q` the position after it. -/
def PulseHalves (i : Instr) (s : State) (v : Level) (us : Nat) (n : Fin 582) (q : Pos) : Prop :=
  (s.pos.sub = .emit → s.lineAnswer = .ok → StartsPulse i s v us) ∧
  (s.pos.sub = .emit → s.lineAnswer = .err → FailsToSetLevel i s v n) ∧
  (∀ late rest, s.pos.sub = .wait → s.ports.sleepAnswers = .ok late :: rest → EndsPulse i s late q) ∧
  (∀ late rest, s.pos.sub = .wait → s.ports.sleepAnswers = .err late :: rest → FailsToSleep i s late n)

section
variable {s : State} {k : PulseKind} (hk : s.pos.kind s.payload = some k)
include hk

theorem exec_pulse_emit (hsub : s.pos.sub = .emit) : exec k.instr s = .next (s.emitStep k) := by
  simp only [exec_pulse, State.pulseStep, if_pos hk, hsub]

theorem exec_pulse_wait (hsub : s.pos.sub = .wait) : exec k.instr s = .next s.wakeStep := by
  simp only [exec_pulse, State.pulseStep, if_pos hk, hsub]

theorem startsPulse (hsub : s.pos.sub = .emit) (ha : s.lineAnswer = .ok) :
    StartsPulse k.instr s (levelOf k) (durationOf k) := by
  refine ⟨_, exec_pulse_emit hk hsub, ?_⟩
  simp [State.emitStep, ha, addUs_ns, StoresUnchanged, InputsUnchanged]

theorem endsPulse {late : Nat} {rest : List SleepAnswer} (hsub : s.pos.sub = .wait)
    (ha : s.ports.sleepAnswers = .ok late :: rest) : EndsPulse k.instr s late { s.pos.next with sub := .emit } := by
  refine ⟨_, addNs s.t late, exec_pulse_wait hk hsub, ?_⟩
  simp [State.wakeStep, ha, StoresUnchanged, InputsUnchanged]

variable {n : Fin 582} (hn : s.pos.pidx = some n)
include hn

theorem failsToSetLevel (hsub : s.pos.sub = .emit) (ha : s.lineAnswer = .err) :
    FailsToSetLevel k.instr s (levelOf k) n := by
  refine ⟨_, exec_pulse_emit hk hsub, ?_⟩
  simp [State.emitStep, ha, hn, StoresUnchanged, InputsUnchanged]

theorem failsToSleep {late : Nat} {rest : List SleepAnswer} (hsub : s.pos.sub = .wait)
    (ha : s.ports.sleepAnswers = .err late :: rest) : FailsToSleep k.instr s late n := by
  refine ⟨_, addNs s.t late, exec_pulse_wait hk hsub, ?_⟩
  simp [State.wakeStep, ha, hn, StoresUnchanged, InputsUnchanged]

theorem pulseHalves {q : Pos} (hq : { s.pos.next with sub := .emit } = q) :
    PulseHalves k.instr s (levelOf k) (durationOf k) n q :=
  ⟨startsPulse hk, failsToSetLevel hk hn, fun _ _ hsub ha => hq ▸ endsPulse hk hsub ha,
    fun _ _ => failsToSleep hk hn⟩

end

/-! ### The pulse kinds (spec/41_pulse_transmitter.md R140 to R146) -/

/-- Settles O18: the header's kinds with their table entries, index and next position. -/
theorem headerPulses : Obligations.HeaderPulses := by
  refine fun s => ⟨fun h => ?mark, fun h => ?space⟩
  case mark => exact pulseHalves (Pos.kind_hdrMark h) (Pos.pidx_hdrMark h) (by rw [Pos.next_hdrMark h])
  case space => exact pulseHalves (Pos.kind_hdrSpace h) (Pos.pidx_hdrSpace h) (by rw [Pos.next_hdrSpace h])

/-- Settles O19: the kind at BIT_MARK does not look at the payload. -/
theorem bitMarkPulse : Obligations.BitMarkPulse := by
  intro s h
  have hn := Pos.pidx_eq_some_of_phase (n := ⟨_, s.pos.pulseIndex_lt⟩) h rfl rfl
  exact ⟨_, Pos.pulseIndex_bitMark h, pulseHalves (Pos.kind_bitMark h) hn (by rw [Pos.next_bitMark h])⟩

/-- Settles O20: the bit of PAYLOAD chooses the kind and with it the duration; index and next position are those of the
position, whatever the bit. -/
theorem bitSpacePulses : Obligations.BitSpacePulses := by
  intro s h
  have hn := Pos.pidx_eq_some_of_phase (n := ⟨_, s.pos.pulseIndex_lt⟩) h rfl rfl
  have hkind (v : Bool) (hv : s.payload.bit s.pos.byteIdx s.pos.bitIdx = v) :
      s.pos.kind s.payload = some (spaceKind v) := hv ▸ Pos.kind_bitSpace h
  exact ⟨_, _, Pos.pulseIndex_bitSpace h, Pos.next_bitSpace h, fun hbit => pulseHalves (hkind false hbit) hn rfl,
    fun hbit => pulseHalves (hkind true hbit) hn rfl⟩

/-- Settles O21: the gap's kinds with their table entries, index and next position; the sequencer writes the indices 17
and 7 itself. -/
theorem repeatGapPulses : Obligations.RepeatGapPulses := by
  refine fun s => ⟨fun h => ?mark, fun h => ?space⟩
  case mark => exact pulseHalves (Pos.kind_rptMark h) (Pos.pidx_rptMark h) (by rw [Pos.next_rptMark h])
  case space => exact pulseHalves (Pos.kind_rptSpace h) (Pos.pidx_rptSpace h) (by rw [Pos.next_rptSpace h])

end Sys2Proof.Machine
end

section
namespace Sys2Proof.Machine

/-! ### Errors and host faults of a command (spec/60_exceptions.md R191, R197) -/

section
variable (s : State)

@[simp] theorem State.accept_events : s.accept.events = s.events := rfl
@[simp] theorem State.hostfault_events (b : BitVec 3) : (s.hostfault b).events = s.events := rfl

end

section
variable {s : State}

theorem exec_transmit_busy (hbusy : s.busy = true) :
    exec .transmit s = .next ((s.hostfault busyBit).observe (.cmd .transmit)) := by
  simpa [hbusy] using exec_transmit_cases s

variable (hrest : s.busy = false)
include hrest

theorem exec_transmit_noPayload (hvalid : s.stageValid = false) :
    exec .transmit s = .next ((s.hostfault noPayloadBit).observe (.cmd .transmit)) := by
  simpa [hrest, hvalid] using exec_transmit_cases s

theorem exec_transmit_lineNotReady (hvalid : s.stageValid = true) (hready : s.ports.lineReady = false) :
    exec .transmit s = .next ((s.accept.raiseError .deviceUnavailable none).observe (.cmd .transmit)) := by
  simpa [hrest, hvalid, hready] using exec_transmit_cases s

end

/-- A command that ends in a host fault changes HOSTFAULT and adds itself to the trace, and nothing else. -/
theorem onlyHostfaultDiffers_hostfault (s : State) (b : BitVec 3) (e : PortEvent) :
    OnlyHostfaultDiffers s ((s.hostfault b).observe e) := by
  simp [OnlyHostfaultDiffers, StoresUnchanged]

/-- What each clause of R197 says of a command whose meaning is a host fault. -/
theorem exists_hostfault_outcome {i : Instr} {s : State} {b : BitVec 3}
    (h : exec i s = .next ((s.hostfault b).observe (.cmd i))) :
    ∃ u, exec i s = .next u ∧ u.hostFault = s.hostFault ||| b ∧ OnlyHostfaultDiffers s u ∧
      u.events = s.events ++ [.cmd i] :=
  ⟨_, h, rfl, onlyHostfaultDiffers_hostfault s b _, by simp⟩

/-- Settles O14: the latch of an accepted TRANSMIT followed by the error entry, with no answer of a port used up. -/
theorem transmitWithoutLine : Obligations.TransmitWithoutLine := by
  intro s hrest hvalid hready
  refine ⟨_, exec_transmit_lineNotReady hrest hvalid hready, ?_⟩
  simp [Pos.restart]

/-- Settles O16: each of the three meanings is one host fault, TRANSMIT's busy check being the first. -/
theorem hostFaultsSetOneBit : Obligations.HostFaultsSetOneBit := by
  refine fun s => ⟨fun op => ?reserved, fun hbusy => ?busy, fun hrest hvalid => ?noPayload⟩
  case reserved => exact exists_hostfault_outcome (exec_reserved op s)
  case busy => exact exists_hostfault_outcome (exec_transmit_busy hbusy)
  case noPayload => exact exists_hostfault_outcome (exec_transmit_noPayload hrest hvalid)

end Sys2Proof.Machine
end

section
namespace Sys2Proof

/-! ### Decoding and encoding are inverse (spec/30_encoding.md R73, R76, R77, R79) -/

theorem Instr.wellFormed_reserved {op : Byte} :
    (Instr.reserved op).wellFormed = true ↔ op ≠ 0x01#8 ∧ op ≠ 0x02#8 := by
  simp only [Instr.wellFormed, Bool.and_eq_true, bne_iff_ne]

/-- A whole command with no byte after it is what `decode` reads from its bytes. -/
theorem decode_command_of_decodeCommand {bytes : List Byte} {i : Instr} (h : decodeCommand bytes = .ok (i, [])) :
    decode (.command bytes) = .ok i := by
  simp only [decode, h]

theorem decodeCommand_of_decode_command {bytes : List Byte} {i : Instr} (h : decode (.command bytes) = .ok i) :
    decodeCommand bytes = .ok (i, []) := by
  simp only [decode] at h
  split at h <;> cases h
  assumption

/-- Every three-bit code is the code of the instruction it decodes to. -/
theorem encode_decodePulse (code : BitVec 3) :
    (decodePulse code).wellFormed = true ∧ encode (decodePulse code) = .pulse code := by
  revert code
  decide

end Sys2Proof

namespace Sys2Proof.Machine

/-- Settles O3: the bytes of each command are read back whole, a reserved opcode because it is no assigned one; each
pulse kind's code is one row of the table. -/
theorem decodeOfEncode : Obligations.DecodeOfEncode := by
  intro i hi
  cases i with
  | build p m t f v => exact decode_command_of_decodeCommand (decodeCommand_build p m t f v [])
  | transmit => exact decode_command_of_decodeCommand (decodeCommand_transmit [])
  | reserved op =>
    obtain ⟨hbuild, htransmit⟩ := Instr.wellFormed_reserved.mp hi
    exact decode_command_of_decodeCommand (decodeCommand_reserved hbuild htransmit [])
  | hdrMark | hdrSpace | bitMark | zeroSpace | oneSpace | rptMark | rptSpace | unusedPulseKind => rfl

/-- Settles O4: a command is one of three shapes, each of which its encoding writes; a pulse code is its instruction's. -/
theorem encodeOfDecode : Obligations.EncodeOfDecode := by
  intro w i h
  cases w with
  | command bytes =>
    obtain ⟨p, m, t, f, v, rfl, rfl⟩ | ⟨rfl, rfl⟩ | ⟨op, rfl, hbuild, htransmit, rfl⟩ :=
      decodeCommand_cases (decodeCommand_of_decode_command h)
    · exact ⟨rfl, rfl⟩
    · exact ⟨rfl, rfl⟩
    · exact ⟨Instr.wellFormed_reserved.mpr ⟨hbuild, htransmit⟩, rfl⟩
  | pulse code =>
    obtain rfl := Except.ok.inj h
    exact encode_decodePulse code

end Sys2Proof.Machine
end

section
namespace Sys2Proof.Machine

/-! ### One step, by its outcome (spec/60_exceptions.md R198) -/

/-- The states a step from `s` can answer, one constructor for each outcome of the operation whose turn it is. -/
inductive StepOutcome (s : State) : State → Prop where
  | pass (hturn : s.nextTurn = .engine ∨ s.nextTurn = .command) : StepOutcome s s.turnTaken
  | pulseStarts (k : PulseKind) (hturn : s.nextTurn = .engine) (hk : s.pos.kind s.payload = some k)
      (hsub : s.pos.sub = .emit) (ha : s.lineAnswer = .ok) :
      StepOutcome s (((s.turnTaken.lineAnswered.emitOk k).observe (.setLevel (levelOf k) .ok)).observe
        (.sleepUntil (addUs s.t (durationOf k))))
  | setLevelFails (k : PulseKind) (hturn : s.nextTurn = .engine) (hk : s.pos.kind s.payload = some k)
      (hsub : s.pos.sub = .emit) (ha : s.lineAnswer = .err) :
      StepOutcome s ((s.turnTaken.lineAnswered.loseLine.raiseError .lineActuationFailure s.pos.pidx).observe
        (.setLevel (levelOf k) .err))
  | pulseEnds (k : PulseKind) (late : Nat) (rest : List SleepAnswer) (hturn : s.nextTurn = .engine)
      (hk : s.pos.kind s.payload = some k) (hsub : s.pos.sub = .wait) (ha : s.ports.sleepAnswers = .ok late :: rest) :
      StepOutcome s (s.turnTaken.sleepAnswered.advance.observe (.wake (addNs s.t late) .ok))
  | sleepFails (k : PulseKind) (late : Nat) (rest : List SleepAnswer) (hturn : s.nextTurn = .engine)
      (hk : s.pos.kind s.payload = some k) (hsub : s.pos.sub = .wait) (ha : s.ports.sleepAnswers = .err late :: rest) :
      StepOutcome s ((s.turnTaken.sleepAnswered.raiseError .clockUnavailable s.pos.pidx).observe
        (.wake (addNs s.t late) .err))
  | build (p m t f v : Byte) (rest : List Byte) (hturn : s.nextTurn = .command)
      (hcmd : decodeCommand s.ports.cmd = .ok (.build p m t f v, rest)) :
      StepOutcome s (State.observe { s.turnTaken.withCmd rest with stage := buildPayload p m t f v, stageValid := true }
        (.cmd (.build p m t f v)))
  | hostFault (bit : BitVec 3) (i : Instr) (rest : List Byte) (hturn : s.nextTurn = .command) :
      StepOutcome s (((s.turnTaken.withCmd rest).hostfault bit).observe (.cmd i))
  | lineNotReady (rest : List Byte) (hturn : s.nextTurn = .command)
      (hcmd : decodeCommand s.ports.cmd = .ok (.transmit, rest)) (hrest : s.busy = false)
      (hvalid : s.stageValid = true) :
      StepOutcome s (((s.turnTaken.withCmd rest).accept.raiseError .deviceUnavailable none).observe (.cmd .transmit))
  | nowFails (rest : List Byte) (hturn : s.nextTurn = .command)
      (hcmd : decodeCommand s.ports.cmd = .ok (.transmit, rest)) (hrest : s.busy = false)
      (hvalid : s.stageValid = true) (hready : s.ports.lineReady = true) (hnow : s.nowAnswer = none) :
      StepOutcome s ((((s.turnTaken.withCmd rest).accept.nowAnswered.raiseError .clockUnavailable none).observe
        (.cmd .transmit)).observe (.now none))
  | transmissionStarts (t0 : AbsTime) (rest : List Byte) (hturn : s.nextTurn = .command)
      (hcmd : decodeCommand s.ports.cmd = .ok (.transmit, rest)) (hrest : s.busy = false)
      (hvalid : s.stageValid = true) (hready : s.ports.lineReady = true) (hnow : s.nowAnswer = some t0) :
      StepOutcome s ((((s.turnTaken.withCmd rest).accept.nowAnswered.start t0).observe (.cmd .transmit)).observe
        (.now (some t0)))
  | reset (hturn : s.nextTurn = .reset) : StepOutcome s s.turnTaken.resetEvent
  | lineReady (b : Bool) (hturn : s.nextTurn = .lineReady b) : StepOutcome s (s.turnTaken.withLineReady b)

theorem StepOutcome.of_pulse {s : State} {k : PulseKind} (hturn : s.nextTurn = .engine)
    (hk : s.pos.kind s.payload = some k) : StepOutcome s (s.turnTaken.pulseStep k) := by
  obtain ⟨hsub, ha, h⟩ | ⟨hsub, ha, h⟩ | ⟨late, rest, hsub, ha, h⟩ | ⟨late, rest, hsub, ha, h⟩ | ⟨-, -, h⟩ :=
    State.pulseStep_cases (s := s.turnTaken) hk
  · rw [h]; exact .pulseStarts k hturn hk hsub ha
  · rw [h]; exact .setLevelFails k hturn hk hsub ha
  · rw [h]; exact .pulseEnds k late rest hturn hk hsub ha
  · rw [h]; exact .sleepFails k late rest hturn hk hsub ha
  · rw [h]; exact .pass (.inl hturn)

theorem StepOutcome.of_command {s u : State} {i : Instr} {rest : List Byte} (hturn : s.nextTurn = .command)
    (hcmd : decodeCommand s.ports.cmd = .ok (i, rest)) (h : exec i (s.turnTaken.withCmd rest) = .next u) :
    StepOutcome s u := by
  obtain ⟨p, m, t, f, v, rfl, -⟩ | ⟨rfl, -⟩ | ⟨op, rfl, -⟩ := decodeCommand_cases hcmd
  · cases h
    exact .build p m t f v rest hturn hcmd
  · obtain ⟨-, h'⟩ | ⟨-, -, h'⟩ | ⟨hb, hv, -, h'⟩ | ⟨hb, hv, hr, hn, h'⟩ | ⟨t0, hb, hv, hr, hn, h'⟩ :=
      exec_transmit_cases (s.turnTaken.withCmd rest)
    all_goals cases h'.symm.trans h
    · exact .hostFault _ _ rest hturn
    · exact .hostFault _ _ rest hturn
    · exact .lineNotReady rest hturn hcmd hb hv
    · exact .nowFails rest hturn hcmd hb hv hr hn
    · exact .transmissionStarts t0 rest hturn hcmd hb hv hr hn
  · cases h
    exact .hostFault _ _ rest hturn

/-- Every step has one of the outcomes. -/
theorem step_outcome {s u : State} (h : step s = .next u) : StepOutcome s u := by
  obtain ⟨hturn, -, rfl⟩ | ⟨k, hturn, hk, rfl⟩ | ⟨hturn, -, rfl⟩ | ⟨i, rest, hturn, hcmd, h⟩ | ⟨hturn, rfl⟩ |
    ⟨b, hturn, rfl⟩ := step_cases h
  · exact .pass (.inl hturn)
  · exact .of_pulse hturn hk
  · exact .pass (.inr hturn)
  · exact .of_command hturn hcmd h
  · exact .reset hturn
  · exact .lineReady b hturn

end Sys2Proof.Machine
end

section
namespace Sys2Proof.Machine

/-! ### The trace across the updates of a step -/

section
variable (s : State)

@[simp] theorem State.nowAnswered_events : s.nowAnswered.events = s.events := by
  rw [State.events, State.nowAnswered_trace, State.events]

@[simp] theorem State.start_events (t0 : AbsTime) : (s.start t0).events = s.events := rfl
@[simp] theorem State.turnTaken_events : s.turnTaken.events = s.events := rfl
@[simp] theorem State.withCmd_events (rest : List Byte) : (s.withCmd rest).events = s.events := rfl
@[simp] theorem State.withLineReady_events (b : Bool) : (s.withLineReady b).events = s.events := rfl

end

/-! ### What a step runs (spec/60_exceptions.md R198, R206) -/

section
variable {s : State}

theorem step_engine (h : s.nextTurn = .engine) : step s = runEngine s.turnTaken := by simp only [step, h]

theorem step_command (h : s.nextTurn = .command) : step s = runCommand s.turnTaken := by simp only [step, h]

theorem step_reset (h : s.nextTurn = .reset) : step s = .next s.turnTaken.resetEvent := by simp only [step, h]

theorem step_lineReady {b : Bool} (h : s.nextTurn = .lineReady b) : step s = .next (s.turnTaken.withLineReady b) := by
  simp only [step, h]

theorem runEngine_pulse {k : PulseKind} (hk : s.pos.kind s.payload = some k) : runEngine s = .next (s.pulseStep k) := by
  rw [runEngine_eq, hk]

theorem runEngine_rest (h : s.busy = false) : runEngine s = .next s := by
  rw [runEngine_eq, State.kind_none_of_idle h]

theorem runCommand_decoded {i : Instr} {rest : List Byte} (h : decodeCommand s.ports.cmd = .ok (i, rest)) :
    runCommand s = exec i (s.withCmd rest) := by
  simp only [runCommand, State.fetchCommand, h]

theorem runCommand_error {e : DecodeError} (h : decodeCommand s.ports.cmd = .error e) : runCommand s = .next s := by
  simp only [runCommand, State.fetchCommand, h]

theorem State.pulseStep_waiting {k : PulseKind} (hsub : s.pos.sub = .wait) (ha : s.ports.sleepAnswers = []) :
    s.pulseStep k = s := by
  simp only [State.pulseStep, hsub, State.wakeStep, ha, ite_self]

theorem State.pulseStep_of_ne {k : PulseKind} (h : s.pos.kind s.payload ≠ some k) : s.pulseStep k = s := if_neg h

/-- The engine waits while the clock has not answered, whatever the phase. -/
theorem runEngine_waiting (hsub : s.pos.sub = .wait) (ha : s.ports.sleepAnswers = []) : runEngine s = .next s := by
  cases hk : s.pos.kind s.payload with
  | none => rw [runEngine_eq, hk]
  | some k => rw [runEngine_pulse hk, State.pulseStep_waiting hsub ha]

end

/-- TRANSMIT goes on from every state. -/
theorem exec_transmit_next (s : State) : ∃ u, exec .transmit s = .next u := ⟨_, rfl⟩

/-- A command read from CMD goes on: none of the three has an arm that stops. -/
theorem exec_decoded_next {bytes rest : List Byte} {i : Instr} (h : decodeCommand bytes = .ok (i, rest)) (s : State) :
    ∃ u, exec i s = .next u := by
  obtain ⟨p, m, t, f, v, rfl, -⟩ | ⟨rfl, -⟩ | ⟨op, rfl, -⟩ := decodeCommand_cases h
  · exact ⟨_, exec_build p m t f v s⟩
  · exact exec_transmit_next s
  · exact ⟨_, exec_reserved op s⟩

theorem runEngine_next (s : State) : ∃ u, runEngine s = .next u := by
  cases hk : s.pos.kind s.payload with
  | none => exact ⟨s, by rw [runEngine_eq, hk]⟩
  | some k => exact ⟨_, runEngine_pulse hk⟩

theorem runCommand_next (s : State) : ∃ u, runCommand s = .next u := by
  cases hc : decodeCommand s.ports.cmd with
  | error e => exact ⟨s, runCommand_error hc⟩
  | ok r =>
    obtain ⟨i, rest⟩ := r
    rw [runCommand_decoded hc]
    exact exec_decoded_next hc _

/-- Settles O8: each turn goes on, the engine's because the sequencer runs kinds only, a command's because the decoder
answers commands only. -/
theorem stepAlwaysGoesOn : Obligations.StepAlwaysGoesOn := by
  intro s
  cases h : s.nextTurn with
  | engine => rw [step_engine h]; exact runEngine_next _
  | command => rw [step_command h]; exact runCommand_next _
  | reset => exact ⟨_, step_reset h⟩
  | lineReady b => exact ⟨_, step_lineReady h⟩

/-- Settles O5: the turn picks the host, the bytes pick the command. -/
theorem stepRunsDecodedCommand : Obligations.StepRunsDecodedCommand := fun s _ _ hturn hcmd =>
  (step_command hturn).trans (runCommand_decoded (s := s.turnTaken) hcmd)

/-- Settles O6: the kind's code decodes to the kind's instruction, whose meaning is the engine's half pulse. -/
theorem stepRunsDecodedPulse : Obligations.StepRunsDecodedPulse := by
  intro s k i hturn hk hi
  obtain rfl : k.instr = i := (decodePulse_code k).symm.trans (Except.ok.inj hi)
  calc step s = runEngine s.turnTaken := step_engine hturn
    _ = .next (s.turnTaken.pulseStep k) := runEngine_pulse hk
    _ = exec k.instr s.turnTaken := (exec_pulse k _).symm

/-- Settles O7: in each of the three cases the turn is taken and the operation answers its state as it was. -/
theorem stepWaitsWithNothingEnabled : Obligations.StepWaitsWithNothingEnabled := by
  intro s
  refine ⟨fun hturn hphase => ?rest, fun hturn hsub ha => ?wait, fun e hturn hcmd => ?command⟩
  case rest =>
    have hrest : s.busy = false := by
      rw [State.busy]
      obtain h | h | h := hphase <;> rw [h] <;> rfl
    exact (step_engine hturn).trans (runEngine_rest hrest)
  case wait => exact (step_engine hturn).trans (runEngine_waiting hsub ha)
  case command => exact (step_command hturn).trans (runCommand_error hcmd)

/-- Settles O22: the meaning of a kind's instruction looks for its kind at the position first. -/
theorem pulseAwayFromItsPlace : Obligations.PulseAwayFromItsPlace := fun s k hk => by
  rw [exec_pulse, State.pulseStep_of_ne hk]

/-- Settles O54: the turn and the input are the only fields written. -/
theorem lineReadyTurn : Obligations.LineReadyTurn := fun _ _ hturn =>
  ⟨_, step_lineReady hturn, rfl, rfl, rfl, rfl, rfl, rfl, rfl, fun _ => ⟨rfl, rfl⟩, rfl, rfl, rfl, rfl, rfl, rfl, rfl,
    rfl, rfl⟩

/-! ### The reset event (spec/70_reset_and_hazards.md R220, R222) -/

section
variable (s : State)

@[simp] theorem State.resetEvent_pos : s.resetEvent.pos = Pos.reset := rfl
@[simp] theorem State.resetEvent_payload : s.resetEvent.payload = [] := rfl
@[simp] theorem State.resetEvent_stage : s.resetEvent.stage = [] := rfl
@[simp] theorem State.resetEvent_stageValid : s.resetEvent.stageValid = false := rfl
@[simp] theorem State.resetEvent_line : s.resetEvent.line = .unknown := rfl
@[simp] theorem State.resetEvent_err : s.resetEvent.err = .none := rfl
@[simp] theorem State.resetEvent_failPulse : s.resetEvent.failPulse = none := rfl
@[simp] theorem State.resetEvent_hostFault : s.resetEvent.hostFault = 0#3 := rfl
@[simp] theorem State.resetEvent_ports : s.resetEvent.ports = s.sleepAbandoned.ports := rfl
@[simp] theorem State.resetEvent_trace : s.resetEvent.trace = s.trace := rfl
@[simp] theorem State.resetEvent_events : s.resetEvent.events = s.events := rfl

theorem State.resetEvent_status : s.resetEvent.status = 0x03FF0000#32 :=
  State.status_of_reset_registers rfl rfl rfl rfl rfl

variable {s}

theorem State.sleepAbandoned_wait (h : s.pos.sub = .wait) : s.sleepAbandoned = s.sleepAnswered := by
  simp only [State.sleepAbandoned, h]

theorem State.sleepAbandoned_emit (h : s.pos.sub = .emit) : s.sleepAbandoned = s := by
  simp only [State.sleepAbandoned, h]

end

/-- Settles O10: the registers are those of the reset state; the inputs are kept, but for the answer of a sleep
outstanding, which SUB tells. -/
theorem resetEventAbandons : Obligations.ResetEventAbandons := by
  intro s hturn
  refine ⟨_, step_reset hturn, rfl, rfl, rfl, rfl, rfl, rfl, State.resetEvent_status _, rfl, ?_⟩
  cases hsub : s.pos.sub with
  | wait => simp [State.sleepAbandoned_wait (s := s.turnTaken) hsub]
  | emit => simp [State.sleepAbandoned_emit (s := s.turnTaken) hsub]

/-! ### An accepted TRANSMIT (spec/41_pulse_transmitter.md R120, R193) -/

section
variable {s : State} (hrest : s.busy = false) (hvalid : s.stageValid = true) (hready : s.ports.lineReady = true)
include hrest hvalid hready

theorem exec_transmit_nowFails (hnow : s.nowAnswer = none) : exec .transmit s = .next
    (((s.accept.nowAnswered.raiseError .clockUnavailable none).observe (.cmd .transmit)).observe (.now none)) := by
  simpa [hrest, hvalid, hready, hnow] using exec_transmit_cases s

theorem exec_transmit_starts {t0 : AbsTime} (hnow : s.nowAnswer = some t0) : exec .transmit s = .next
    (((s.accept.nowAnswered.start t0).observe (.cmd .transmit)).observe (.now (some t0))) := by
  simpa [hrest, hvalid, hready, hnow] using exec_transmit_cases s

end

/-- Settles O13: the latch, the clock's answer and the first position, each read off the state TRANSMIT answers. -/
theorem transmitStartsFirstPulse : Obligations.TransmitStartsFirstPulse := by
  intro s t0 hrest hvalid hready hnow
  refine ⟨_, exec_transmit_starts hrest hvalid hready hnow, ?_⟩
  simp [Pos.restart, InputsUnchanged]

/-- Settles O15: the latch of an accepted TRANSMIT followed by the error entry, with the clock's answer used up. -/
theorem transmitWithoutClock : Obligations.TransmitWithoutClock := by
  intro s hrest hvalid hready hnow
  refine ⟨_, exec_transmit_nowFails hrest hvalid hready hnow, ?_⟩
  simp [Pos.restart, InputsUnchanged]

end Sys2Proof.Machine
end

section
namespace Sys2Proof.Machine

/-! ### The walk of the sequencer over legal positions (spec/41_pulse_transmitter.md R124, R130) -/

/-- The phase of pulse `n`: the repeat gap at 290 and 291; in a frame the header at its first two pulses, and then
marks at even indices and spaces at odd ones. -/
def phaseOfPulse (n : Nat) : Phase :=
  if n = 290 then .rptMark
  else if n = 291 then .rptSpace
  else if n % 292 = 0 then .hdrMark
  else if n % 292 = 1 then .hdrSpace
  else if n % 2 = 0 then .bitMark
  else .bitSpace

section
variable {p : Pos}

theorem Pos.frameBase_eq (p : Pos) : p.frameBase = 292 * p.frame.val := by
  obtain h | h : p.frame = 0 ∨ p.frame = 1 := by omega
  · simp [Pos.frameBase, h]
  · simp [Pos.frameBase, h]

/-- The indices of a header, by its frame. -/
theorem Pos.Legal.header (hl : p.Legal) (h : p.phase = .hdrMark ∨ p.phase = .hdrSpace) :
    p.byteIdx.val = 17 * p.frame.val ∧ p.bitIdx.val = 7 * p.frame.val := by
  obtain hf | hf : p.frame = 0 ∨ p.frame = 1 := by omega
  · obtain ⟨hb, hi⟩ := hl.header_first h hf
    simp [hf, hb, hi]
  · obtain ⟨hb, hi⟩ := hl.header_second h hf
    simp [hf, hb, hi]

/-- A legal position's frame and phase are told by its pulse index: a frame is 290 pulses, and the gap follows frame 0. -/
theorem Pos.Legal.frame_phase (hl : p.Legal) (h : p.phase.isPulse = true) :
    p.frame.val = p.pulseIndex / 292 ∧ p.phase = phaseOfPulse p.pulseIndex := by
  have hbase := p.frameBase_eq
  have hb := p.byteIdx.isLt
  have hi := p.bitIdx.isLt
  have hf := p.frame.isLt
  unfold phaseOfPulse
  cases hp : p.phase with
  | hdrMark =>
    have hn := Pos.pulseIndex_hdrMark hp
    refine ⟨by omega, ?_⟩
    rw [if_neg (by omega), if_neg (by omega), if_pos (by omega)]
  | hdrSpace =>
    have hn := Pos.pulseIndex_hdrSpace hp
    refine ⟨by omega, ?_⟩
    rw [if_neg (by omega), if_neg (by omega), if_neg (by omega), if_pos (by omega)]
  | bitMark =>
    have hn := Pos.pulseIndex_bitMark hp
    refine ⟨by omega, ?_⟩
    rw [if_neg (by omega), if_neg (by omega), if_neg (by omega), if_neg (by omega), if_pos (by omega)]
  | bitSpace =>
    have hn := Pos.pulseIndex_bitSpace hp
    refine ⟨by omega, ?_⟩
    rw [if_neg (by omega), if_neg (by omega), if_neg (by omega), if_neg (by omega), if_neg (by omega)]
  | rptMark =>
    obtain ⟨hframe, -⟩ := hl.gap (.inl hp)
    rw [hframe, Pos.pulseIndex_rptMark hp]
    exact ⟨rfl, rfl⟩
  | rptSpace =>
    obtain ⟨hframe, -⟩ := hl.gap (.inr hp)
    rw [hframe, Pos.pulseIndex_rptSpace hp]
    exact ⟨rfl, rfl⟩
  | idle | done | failed => rw [hp] at h; contradiction

end

/-- Within one frame and phase the pulse index tells the byte and the bit. -/
theorem Pos.Legal.indices_eq {p q : Pos} (hlp : p.Legal) (hlq : q.Legal) (h : p.phase.isPulse = true)
    (hphase : p.phase = q.phase) (hframe : p.frame = q.frame) (hn : p.pulseIndex = q.pulseIndex) :
    p.byteIdx = q.byteIdx ∧ p.bitIdx = q.bitIdx := by
  have hbase : p.frameBase = q.frameBase := by simp only [Pos.frameBase, hframe]
  have hbitp := p.bitIdx.isLt
  have hbitq := q.bitIdx.isLt
  cases hp : p.phase with
  | hdrMark | hdrSpace =>
    have hheader : p.phase = .hdrMark ∨ p.phase = .hdrSpace := by simp [hp]
    obtain ⟨hbp, hip⟩ := hlp.header hheader
    obtain ⟨hbq, hiq⟩ := hlq.header (hphase ▸ hheader)
    rw [hframe] at hbp hip
    exact ⟨Fin.ext (hbp.trans hbq.symm), Fin.ext (hip.trans hiq.symm)⟩
  | bitMark =>
    rw [Pos.pulseIndex_bitMark hp, Pos.pulseIndex_bitMark (hphase ▸ hp), hbase] at hn
    omega
  | bitSpace =>
    rw [Pos.pulseIndex_bitSpace hp, Pos.pulseIndex_bitSpace (hphase ▸ hp), hbase] at hn
    omega
  | rptMark | rptSpace =>
    have hgap : p.phase = .rptMark ∨ p.phase = .rptSpace := by simp [hp]
    obtain ⟨-, hbp, hip⟩ := hlp.gap hgap
    obtain ⟨-, hbq, hiq⟩ := hlq.gap (hphase ▸ hgap)
    exact ⟨hbp.trans hbq.symm, hip.trans hiq.symm⟩
  | idle | done | failed => rw [hp] at h; contradiction

/-- Settles O28: the index tells frame and phase, and with them the byte and the bit. -/
theorem pulseIndexIsUnique : Obligations.PulseIndexIsUnique := by
  intro p q n hlp hlq hp hq hsub
  obtain ⟨hpulsep, hnp⟩ := Pos.pidx_eq_some.mp hp
  obtain ⟨hpulseq, hnq⟩ := Pos.pidx_eq_some.mp hq
  have hn : p.pulseIndex = q.pulseIndex := hnp.trans hnq.symm
  obtain ⟨hframep, hphasep⟩ := hlp.frame_phase hpulsep
  obtain ⟨hframeq, hphaseq⟩ := hlq.frame_phase hpulseq
  have hphase : p.phase = q.phase := by rw [hphasep, hphaseq, hn]
  have hframe : p.frame = q.frame := Fin.ext (by rw [hframep, hframeq, hn])
  obtain ⟨hbyte, hbit⟩ := hlp.indices_eq hlq hpulsep hphase hframe hn
  cases p
  cases q
  simp_all only

/-- The position of the end of a transmission (R135). -/
def Pos.finished (p : Pos) : Pos := { p with phase := .done, frame := 1, byteIdx := 17, bitIdx := 7 }

/-- From a bit's space to the next mark of the frame, to the gap, or to the end. -/
theorem Pos.next_cases_bitSpace {p : Pos} (hp : p.phase = .bitSpace) :
    (p.next.phase.isPulse = true ∧ p.next.pulseIndex = p.pulseIndex + 1) ∨
    (p.pulseIndex = 581 ∧ p.next = p.finished) := by
  obtain ⟨-, hbit, hbyte, hgap, -⟩ := Pos.next_bitSpace hp
  have hn := Pos.pulseIndex_bitSpace hp
  have hbase := p.frameBase_eq
  have mark (hphase : p.next.phase = .bitMark) (hframe : p.next.frame = p.frame)
      (hindex : 8 * p.next.byteIdx.val + p.next.bitIdx.val = 8 * p.byteIdx.val + p.bitIdx.val + 1) :
      p.next.phase.isPulse = true ∧ p.next.pulseIndex = p.pulseIndex + 1 := by
    refine ⟨by rw [hphase]; rfl, ?_⟩
    rw [Pos.pulseIndex_bitMark hphase, hindex, Pos.frameBase_eq, hframe]
    omega
  obtain hi | hi : p.bitIdx.val < 7 ∨ p.bitIdx.val = 7 := by omega
  · obtain ⟨hphase, hframe, hb, hi'⟩ := hbit hi
    exact .inl (mark hphase hframe (by rw [hb, hi']; omega))
  obtain hb | hb : p.byteIdx.val < 17 ∨ p.byteIdx.val = 17 := by omega
  · obtain ⟨hphase, hframe, hb', hi'⟩ := hbyte hi hb
    exact .inl (mark hphase hframe (by rw [hb', hi']; omega))
  obtain hf | hf : p.frame = 0 ∨ p.frame = 1 := by omega
  · have hphase : p.next.phase = .rptMark := (hgap hi hb hf).1
    refine .inl ⟨by rw [hphase]; rfl, ?_⟩
    rw [Pos.pulseIndex_rptMark hphase]
    omega
  · refine .inr ⟨by omega, ?_⟩
    simp [Pos.next, Pos.finished, hp, hi, hb, hf]

/-- The position after a pulse: the pulse of the next index, or the end after pulse 581. -/
theorem Pos.next_cases {p : Pos} (hpulse : p.phase.isPulse = true) :
    (p.next.phase.isPulse = true ∧ p.next.pulseIndex = p.pulseIndex + 1) ∨
    (p.pulseIndex = 581 ∧ p.next = p.finished) := by
  cases hp : p.phase with
  | hdrMark =>
    rw [Pos.next_hdrMark hp, Pos.pulseIndex_hdrMark hp]
    exact .inl ⟨rfl, rfl⟩
  | hdrSpace =>
    rw [Pos.next_hdrSpace hp, Pos.pulseIndex_hdrSpace hp]
    exact .inl ⟨rfl, rfl⟩
  | bitMark =>
    rw [Pos.next_bitMark hp, Pos.pulseIndex_bitMark hp]
    exact .inl ⟨rfl, by rw [Pos.pulseIndex_bitSpace rfl]; exact Nat.add_right_comm _ 1 _⟩
  | bitSpace => exact Pos.next_cases_bitSpace hp
  | rptMark =>
    rw [Pos.next_rptMark hp, Pos.pulseIndex_rptMark hp]
    exact .inl ⟨rfl, rfl⟩
  | rptSpace =>
    rw [Pos.next_rptSpace hp, Pos.pulseIndex_rptSpace hp]
    exact .inl ⟨rfl, rfl⟩
  | idle | done | failed => rw [hp] at hpulse; contradiction

theorem Pos.pulseIndex_next {p : Pos} (hpulse : p.phase.isPulse = true) (hnext : p.next.phase.isPulse = true) :
    p.next.pulseIndex = p.pulseIndex + 1 := by
  obtain ⟨-, hindex⟩ | ⟨-, hfin⟩ := Pos.next_cases hpulse
  · exact hindex
  · rw [hfin] at hnext; contradiction

theorem Pos.next_finished {p : Pos} (hpulse : p.phase.isPulse = true) (hnext : p.next.phase.isPulse = false) :
    p.pulseIndex = 581 ∧ p.next = p.finished := by
  obtain ⟨h, -⟩ | hfin := Pos.next_cases hpulse
  · rw [h] at hnext; contradiction
  · exact hfin

theorem Pos.next_ne_failed {p : Pos} (hpulse : p.phase.isPulse = true) : p.next.phase ≠ .failed := by
  intro h
  obtain ⟨-, hfin⟩ := Pos.next_finished hpulse (by rw [h]; rfl)
  rw [hfin] at h; contradiction

/-- Settles O27: the next index, or the end, and the end comes after pulse 581 alone. -/
theorem nextPulseIsNextIndex : Obligations.NextPulseIsNextIndex := by
  intro p n _ hn
  obtain ⟨hpulse, hn⟩ := Pos.pidx_eq_some.mp hn
  obtain ⟨hnext, hindex⟩ | ⟨hlast, hnext⟩ := Pos.next_cases hpulse
  · have := p.next.pulseIndex_lt
    exact ⟨by omega, fun n' hn' => Pos.pidx_eq_some.mpr ⟨hnext, by omega⟩⟩
  · exact ⟨fun _ => hnext, by omega⟩

/-! ### The positions of a run are legal (spec/10_state.md R22 to R26) -/

theorem Pos.legal_of_bit {p : Pos} (h : p.phase = .bitMark ∨ p.phase = .bitSpace) : p.Legal := by
  obtain h | h := h
  all_goals constructor <;> simp [h, Phase.isPulse]

/-- The positions at the last byte and bit: the gap and the end, and the header of frame 1. -/
theorem Pos.legal_of_last {p : Pos} (hsub : p.sub = .emit) (hb : p.byteIdx = 17) (hi : p.bitIdx = 7)
    (h : (p.phase = .rptMark ∨ p.phase = .rptSpace) ∧ p.frame = 0 ∨
      (p.phase = .hdrMark ∨ p.phase = .done) ∧ p.frame = 1) : p.Legal := by
  obtain ⟨h | h, hf⟩ | ⟨h | h, hf⟩ := h
  all_goals constructor <;> simp [hsub, hb, hi, h, hf]

theorem Pos.Legal.next {p : Pos} (hl : p.Legal) (hpulse : p.phase.isPulse = true) :
    Pos.Legal { p.next with sub := .emit } := by
  cases hp : p.phase with
  | hdrMark =>
    rw [Pos.next_hdrMark hp]
    exact ⟨nofun, by simp, fun _ => hl.header_first (.inl hp), fun _ => hl.header_second (.inl hp), by simp⟩
  | hdrSpace => exact Pos.legal_of_bit (.inl (by rw [Pos.next_hdrSpace hp]))
  | bitMark => exact Pos.legal_of_bit (.inr (by rw [Pos.next_bitMark hp]))
  | bitSpace =>
    obtain ⟨hsub, hbit, hbyte, hgap, hdone⟩ := Pos.next_bitSpace hp
    obtain hi | hi : p.bitIdx.val < 7 ∨ p.bitIdx.val = 7 := by omega
    · exact Pos.legal_of_bit (.inl (hbit hi).1)
    obtain hb | hb : p.byteIdx.val < 17 ∨ p.byteIdx.val = 17 := by omega
    · exact Pos.legal_of_bit (.inl (hbyte hi hb).1)
    obtain hf | hf : p.frame = 0 ∨ p.frame = 1 := by omega
    · obtain ⟨hphase, hframe, hb', hi'⟩ := hgap hi hb hf
      exact Pos.legal_of_last hsub hb' hi' (.inl ⟨.inl hphase, hframe⟩)
    · obtain ⟨hphase, hframe, hb', hi'⟩ := hdone hi hb hf
      exact Pos.legal_of_last hsub hb' hi' (.inr ⟨.inr hphase, hframe⟩)
  | rptMark =>
    rw [Pos.next_rptMark hp]
    exact Pos.legal_of_last rfl rfl rfl (.inl ⟨.inr rfl, rfl⟩)
  | rptSpace =>
    rw [Pos.next_rptSpace hp]
    exact Pos.legal_of_last rfl rfl rfl (.inr ⟨.inl rfl, rfl⟩)
  | idle | done | failed => rw [hp] at hpulse; contradiction

end Sys2Proof.Machine
end

section
namespace Sys2Proof.Machine

/-! ### The kind at a position on the schedule (spec/41_pulse_transmitter.md R129, R137) -/

section
variable {p : Pos} {m : Memory} {k : PulseKind}

theorem Pos.isPulse_of_kind (hk : p.kind m = some k) : p.phase.isPulse = true := by
  rw [← Pos.kind_isSome p m, hk]; rfl

theorem schedule_pulseIndex (hk : p.kind m = some k) : (schedule m)[p.pulseIndex]? = some (levelOf k, durationOf k) :=
  schedule_get ((transmission_pulseIndex (Pos.isPulse_of_kind hk)).trans hk)

theorem pulseLevel_pulseIndex (hk : p.kind m = some k) : pulseLevel m p.pulseIndex = levelOf k := by
  simp only [pulseLevel, schedule_pulseIndex hk]

theorem pulseDuration_pulseIndex (hk : p.kind m = some k) : pulseDuration m p.pulseIndex = durationOf k := by
  simp only [pulseDuration, schedule_pulseIndex hk]

theorem levelOf_kind (hk : p.kind m = some k) : levelOf k = if p.pulseIndex % 2 = 0 then .high else .low := by
  rw [← pulseLevel_pulseIndex hk, pulseLevel_of_lt m p.pulseIndex_lt]

theorem Phase.ne_of_isPulse {p q : Phase} (hp : p.isPulse = true) (hq : q.isPulse = false) : p ≠ q := by
  rintro rfl
  rw [hp] at hq; contradiction

/-- The pulse before a position's is at the other level. -/
theorem levelOf_eq_opposite {q : Pos} {l : PulseKind} (hk : p.kind m = some k) (hl : q.kind m = some l)
    (hq : q.pulseIndex = p.pulseIndex + 1) : levelOf k = opposite (levelOf l) := by
  rw [levelOf_kind hk, levelOf_kind hl, hq]
  obtain h | h := Nat.mod_two_eq_zero_or_one p.pulseIndex
  · simp [h, Nat.add_mod, opposite]
  · simp [h, Nat.add_mod, opposite]

theorem Pos.Legal.wait {p : Pos} (hl : p.Legal) (hpulse : p.phase.isPulse = true) : Pos.Legal { p with sub := .wait } :=
  { hl with wait_in_pulse := fun _ => hpulse }

end

/-! ### The invariant across each update (spec/10_state.md R22 to R31) -/

section
variable {s : State}

/-- The invariant reads none of these fields. -/
theorem State.Inv.frame (hi : s.Inv) (t : AbsTime) (hostFault : BitVec 3) (ports : Ports) (draws lineDraw : Nat)
    (trace : List Observation) :
    State.Inv
      { s with t := t, hostFault := hostFault, ports := ports, draws := draws, lineDraw := lineDraw, trace := trace } :=
  { hi with }

theorem State.Inv.turnTaken (hi : s.Inv) : s.turnTaken.Inv := hi.frame ..
theorem State.Inv.withCmd (hi : s.Inv) (rest : List Byte) : (s.withCmd rest).Inv := hi.frame ..
theorem State.Inv.withLineReady (hi : s.Inv) (b : Bool) : (s.withLineReady b).Inv := hi.frame ..
theorem State.Inv.observe (hi : s.Inv) (e : PortEvent) : (s.observe e).Inv := hi.frame ..
theorem State.Inv.hostfault (hi : s.Inv) (bit : BitVec 3) : (s.hostfault bit).Inv := hi.frame ..
theorem State.Inv.sleepAnswered (hi : s.Inv) : s.sleepAnswered.Inv := hi.frame ..

theorem State.Inv.lineAnswered (hi : s.Inv) : s.lineAnswered.Inv := by
  unfold State.lineAnswered
  split <;> exact hi.frame ..

theorem State.Inv.nowAnswered (hi : s.Inv) : s.nowAnswered.Inv := by
  unfold State.nowAnswered
  split <;> exact hi.frame ..

/-- The error entry needs the two stores only: FAILED has no pulse and no line level of its own (R194). -/
theorem State.inv_raiseError {e : TxError} {i : Option (Fin 582)} (he : e ≠ .none)
    (hstage : s.stageValid = true → IsBuilt s.stage) (hpayload : IsBuilt s.payload) (hswf : s.stage.wf = true)
    (hpwf : s.payload.wf = true) : (s.raiseError e i).Inv where
  pos_legal := by constructor <;> simp
  err_iff_failed := ⟨fun _ => rfl, fun _ => he⟩
  fail_pulse _ := rfl
  stage_built := hstage
  payload_built _ := hpayload
  busy_staged := nofun
  wait_line _ := nofun
  emit_line _ _ := nofun
  done_line := nofun
  stage_wf := hswf
  payload_wf := hpwf

theorem State.Inv.raiseError (hi : s.Inv) (hbusy : s.pos.phase.isPulse = true) {e : TxError} (he : e ≠ .none)
    (i : Option (Fin 582)) : (s.raiseError e i).Inv :=
  State.inv_raiseError he hi.stage_built (hi.payload_built (Phase.ne_of_isPulse hbusy rfl)) hi.stage_wf hi.payload_wf

/-- The error entry after the line's level was lost, which FAILED does not ask for. -/
theorem State.Inv.loseLine_raiseError (hi : s.Inv) (hbusy : s.pos.phase.isPulse = true) {e : TxError} (he : e ≠ .none)
    (i : Option (Fin 582)) : (s.loseLine.raiseError e i).Inv :=
  State.inv_raiseError he hi.stage_built (hi.payload_built (Phase.ne_of_isPulse hbusy rfl)) hi.stage_wf hi.payload_wf

theorem State.Inv.err_none (hi : s.Inv) (h : s.pos.phase ≠ .failed) : s.err = .none :=
  not_not.mp (mt hi.err_iff_failed.mp h)

theorem State.Inv.failPulse_none (hi : s.Inv) (h : s.pos.phase ≠ .failed) : s.failPulse = none :=
  not_not.mp (mt hi.fail_pulse h)

theorem State.Inv.emitOk (hi : s.Inv) {k : PulseKind} (hk : s.pos.kind s.payload = some k) : (s.emitOk k).Inv :=
  have hpulse := Pos.isPulse_of_kind hk
  { hi with
    pos_legal := hi.pos_legal.wait hpulse
    wait_line := fun l _ hl => by rw [← Option.some.inj (hk.symm.trans hl)]; rfl
    emit_line := fun _ => nofun
    done_line := fun h => absurd h (Phase.ne_of_isPulse hpulse rfl) }

/-- The wake: the next pulse is at the other level, and the end comes after pulse 581, which is low. -/
theorem State.Inv.advance (hi : s.Inv) {k : PulseKind} (hk : s.pos.kind s.payload = some k) (hsub : s.pos.sub = .wait) :
    s.advance.Inv := by
  have hpulse := Pos.isPulse_of_kind hk
  have hline := hi.wait_line k hsub hk
  have hfailed : s.pos.phase ≠ .failed := Phase.ne_of_isPulse hpulse rfl
  refine { hi with
    pos_legal := hi.pos_legal.next hpulse
    err_iff_failed := ⟨fun h => absurd (hi.err_none hfailed) h, fun h => absurd h (Pos.next_ne_failed hpulse)⟩
    fail_pulse := fun h => absurd (hi.failPulse_none hfailed) h
    payload_built := fun _ => hi.payload_built (Phase.ne_of_isPulse hpulse rfl)
    busy_staged := fun _ => hi.busy_staged hpulse
    wait_line := fun _ => nofun
    emit_line := fun l _ hl _ => ?emit
    done_line := fun h => ?done }
  case emit =>
    have hl : s.pos.next.kind s.payload = some l := hl
    rw [← levelOf_eq_opposite hk hl (Pos.pulseIndex_next hpulse (Pos.isPulse_of_kind hl))]
    exact hline
  case done =>
    have h : s.pos.next.phase = .done := h
    obtain ⟨hlast, -⟩ := Pos.next_finished hpulse (by rw [h]; rfl)
    have hlow : levelOf k = .low := by rw [levelOf_kind hk, hlast]; rfl
    exact hlow ▸ hline

theorem State.Inv.withStage (hi : s.Inv) {m : Memory} (hm : IsBuilt m) (hwf : m.wf = true) :
    State.Inv { s with stage := m, stageValid := true } where
  pos_legal := hi.pos_legal
  err_iff_failed := hi.err_iff_failed
  fail_pulse := hi.fail_pulse
  stage_built _ := hm
  payload_built := hi.payload_built
  busy_staged _ := rfl
  wait_line := hi.wait_line
  emit_line := hi.emit_line
  done_line := hi.done_line
  stage_wf := hwf
  payload_wf := hi.payload_wf

/-- The latch of an accepted TRANSMIT does not touch the answers listed. -/
theorem State.accept_nowAnswered (s : State) : s.accept.nowAnswered = s.nowAnswered.accept := by
  unfold State.nowAnswered
  rw [State.accept_ports]
  split <;> rfl

/-- The first pulse of a transmission asks for no line level. -/
theorem State.Inv.start (hi : s.Inv) (hvalid : s.stageValid = true) (t0 : AbsTime) : (s.accept.start t0).Inv where
  pos_legal := by constructor <;> simp [Pos.restart]
  err_iff_failed := by simp
  fail_pulse h := absurd rfl h
  stage_built := hi.stage_built
  payload_built _ := hi.stage_built hvalid
  busy_staged _ := hvalid
  wait_line _ := nofun
  emit_line _ _ _ h := absurd rfl h
  done_line := nofun
  stage_wf := hi.stage_wf
  payload_wf := hi.stage_wf

/-- An accepted TRANSMIT that fails leaves a payload of BuildPayload in both stores. -/
theorem State.Inv.acceptFails (hi : s.Inv) (hvalid : s.stageValid = true) {e : TxError} (he : e ≠ .none) :
    (s.accept.raiseError e none).Inv :=
  State.inv_raiseError he hi.stage_built (hi.stage_built hvalid) hi.stage_wf hi.stage_wf

end

/-- Settles O35: at rest the invariant asks for no line level and no payload, and the empty stores are canonical. -/
theorem resetHasInv : Obligations.ResetHasInv where
  pos_legal := by constructor <;> simp [State.reset, Pos.reset]
  err_iff_failed := by simp [State.reset, Pos.reset]
  fail_pulse := by simp [State.reset]
  stage_built := nofun
  payload_built h := absurd rfl h
  busy_staged := nofun
  wait_line _ := nofun
  emit_line _ _ := nofun
  done_line := nofun
  stage_wf := rfl
  payload_wf := rfl

theorem State.inv_resetEvent (s : State) : s.resetEvent.Inv := resetHasInv.frame ..

/-- Settles O36: each outcome of a step is a composition of updates that keep the invariant. -/
theorem stepKeepsInv : Obligations.StepKeepsInv := by
  intro s u hi h
  have hi' := hi.turnTaken
  cases step_outcome h with
  | pass => exact hi'
  | pulseStarts k _ hk => exact ((hi'.lineAnswered.emitOk (by simpa using hk)).observe _).observe _
  | setLevelFails k _ hk =>
    exact (hi'.lineAnswered.loseLine_raiseError (by simpa using Pos.isPulse_of_kind hk) (by decide) _).observe _
  | pulseEnds k _ _ _ hk hsub => exact (hi'.sleepAnswered.advance hk hsub).observe _
  | sleepFails k _ _ _ hk => exact (hi'.sleepAnswered.raiseError (Pos.isPulse_of_kind hk) (by decide) _).observe _
  | build p m t f v rest =>
    have hbuilt : IsBuilt (buildPayload p m t f v) := ⟨p, m, t, f, v, rfl⟩
    exact ((hi'.withCmd rest).withStage hbuilt (buildPayload_wf p m t f v)).observe _
  | hostFault bit i rest => exact ((hi'.withCmd rest).hostfault bit).observe _
  | lineNotReady rest _ _ _ hvalid => exact ((hi'.withCmd rest).acceptFails hvalid (by decide)).observe _
  | nowFails rest _ _ _ hvalid =>
    rw [State.accept_nowAnswered]
    exact (((hi'.withCmd rest).nowAnswered.acceptFails (by simpa using hvalid) (by decide)).observe _).observe _
  | transmissionStarts t0 rest _ _ _ hvalid =>
    rw [State.accept_nowAnswered]
    exact (((hi'.withCmd rest).nowAnswered.start (by simpa using hvalid) t0).observe _).observe _
  | reset => exact State.inv_resetEvent _
  | lineReady b => exact hi'.withLineReady b

end Sys2Proof.Machine
end

section
namespace Sys2Proof.Machine

/-! ### `T` on the schedule (spec/41_pulse_transmitter.md R120, R127, R132) -/

section
variable {s u : State} {t0 : AbsTime} {k : PulseKind}

theorem deadlineAfter_succ (t0 : AbsTime) (m : Memory) (n : Nat) :
    deadlineAfter t0 m (n + 1) = addUs (deadlineAfter t0 m n) (pulseDuration m n) :=
  (addUs_addUs t0 _ _).symm

theorem Pos.pidx_of_isPulse {p : Pos} (h : p.phase.isPulse = true) :
    p.pidx = some ⟨p.pulseIndex, p.pulseIndex_lt⟩ :=
  Pos.pidx_eq_some.mpr ⟨h, rfl⟩

/-- A state is on the schedule by its position, its payload and `T` alone. -/
theorem State.OnSchedule.of_eq (hs : s.OnSchedule t0) (hpos : u.pos = s.pos) (hpayload : u.payload = s.payload)
    (ht : u.t = s.t) : u.OnSchedule t0 := by
  simpa only [State.OnSchedule, hpos, hpayload, ht] using hs

/-- Where no transmission runs and none is complete, there is no deadline to keep. -/
theorem State.onSchedule_of_rest (hpulse : u.pos.phase.isPulse = false) (hdone : u.pos.phase ≠ .done) :
    u.OnSchedule t0 := by
  have hnone : u.pos.pidx = none := by simp [Pos.pidx, hpulse]
  refine ⟨fun p h => ?_, fun p h => ?_, fun h => absurd h hdone⟩ <;> · rw [hnone] at h; contradiction

theorem State.OnSchedule.t_emit (hs : s.OnSchedule t0) (hpulse : s.pos.phase.isPulse = true)
    (hsub : s.pos.sub = .emit) : s.t = deadlineAfter t0 s.payload s.pos.pulseIndex :=
  hs.1 ⟨_, s.pos.pulseIndex_lt⟩ (Pos.pidx_of_isPulse hpulse) hsub

theorem State.OnSchedule.t_wait (hs : s.OnSchedule t0) (hpulse : s.pos.phase.isPulse = true)
    (hsub : s.pos.sub = .wait) : s.t = deadlineAfter t0 s.payload (s.pos.pulseIndex + 1) :=
  hs.2.1 ⟨_, s.pos.pulseIndex_lt⟩ (Pos.pidx_of_isPulse hpulse) hsub

/-- A pulse's EMIT takes `T` one deadline on. -/
theorem State.OnSchedule.emitOk (hs : s.OnSchedule t0) (hk : s.pos.kind s.payload = some k) (hsub : s.pos.sub = .emit) :
    (s.emitOk k).OnSchedule t0 := by
  have hpulse := Pos.isPulse_of_kind hk
  refine ⟨fun _ _ => nofun, fun p hp _ => ?wait, fun h => absurd h (Phase.ne_of_isPulse hpulse rfl)⟩
  obtain ⟨-, hp⟩ := Pos.pidx_eq_some.mp (show s.pos.pidx = some p from hp)
  rw [State.emitOk_t, State.emitOk_payload, hs.t_emit hpulse hsub, ← hp, deadlineAfter_succ,
    pulseDuration_pulseIndex hk]

/-- A wake takes the position to the next pulse and leaves `T`, however late it comes. -/
theorem State.OnSchedule.advance (hs : s.OnSchedule t0) (hpulse : s.pos.phase.isPulse = true)
    (hsub : s.pos.sub = .wait) : s.advance.OnSchedule t0 := by
  have ht := hs.t_wait hpulse hsub
  refine ⟨fun p hp _ => ?emit, fun _ _ => nofun, fun h => ?done⟩
  case emit =>
    obtain ⟨hnext, hp⟩ := Pos.pidx_eq_some.mp (show s.pos.next.pidx = some p from hp)
    rw [State.advance_t, State.advance_payload, ht, ← hp, Pos.pulseIndex_next hpulse hnext]
  case done =>
    have h : s.pos.next.phase = .done := h
    obtain ⟨hlast, -⟩ := Pos.next_finished hpulse (by rw [h]; rfl)
    rw [State.advance_t, State.advance_payload, ht, hlast]

end

/-- Settles O37: the first position is pulse 0 and `T` the clock's answer, no duration added. -/
theorem transmitBeginsOnSchedule : Obligations.TransmitBeginsOnSchedule := by
  intro s u t0 hrest hvalid hready hnow h
  cases (exec_transmit_starts hrest hvalid hready hnow).symm.trans h
  refine ⟨fun p hp _ => ?emit, fun _ _ hsub => by simp [Pos.restart] at hsub, nofun⟩
  have hp : 0 = p.val := by simpa [Pos.pulseIndex, Pos.frameBase, Pos.restart] using (Pos.pidx_eq_some.mp hp).2
  simp [← hp, deadlineAfter, offsetAfter]

/-- Settles O38: the engine's two good halves keep the schedule, an error or a reset ends it, and a command or an input
changes none of what it reads. -/
theorem stepKeepsSchedule : Obligations.StepKeepsSchedule := by
  intro s u t0 _ hbusy hs h
  cases step_outcome h with
  | pass => exact hs
  | pulseStarts k _ hk hsub => exact (hs.emitOk hk hsub).of_eq (by simp) (by simp) (by simp)
  | pulseEnds k _ _ _ _ hsub => exact (hs.advance hbusy hsub).of_eq rfl rfl rfl
  | setLevelFails | sleepFails => exact State.onSchedule_of_rest rfl (by simp)
  | reset => exact State.onSchedule_of_rest rfl (by simp [Pos.reset])
  | build | hostFault | lineReady => exact hs.of_eq (by simp) (by simp) (by simp)
  | lineNotReady _ _ _ hrest | nowFails _ _ _ hrest | transmissionStarts _ _ _ _ hrest =>
    rw [hrest] at hbusy; contradiction

/-- Settles O45: of the outcomes of a step from a running transmission four leave it not running: a reset, the wake of the
last pulse, and the two errors. -/
theorem transmissionEndsInDoneOrFailed : Obligations.TransmissionEndsInDoneOrFailed := by
  intro s u t0 hi hs hbusy h hend
  have running (hu : u.busy = s.busy) : False := by rw [hu, hbusy] at hend; contradiction
  cases step_outcome h with
  | pass | build | hostFault | lineReady => exact (running (by simp [State.busy])).elim
  | lineNotReady _ _ _ hrest | nowFails _ _ _ hrest | transmissionStarts _ _ _ _ hrest =>
    rw [hrest] at hbusy; contradiction
  | pulseStarts => exact (running (by simp [State.busy])).elim
  | reset hturn => exact .inl hturn
  | setLevelFails => exact .inr (.inr ⟨rfl, by simp, rfl⟩)
  | sleepFails => exact .inr (.inr ⟨rfl, by simp, rfl⟩)
  | pulseEnds k _ _ _ hk hsub =>
    obtain ⟨hlast, hfin⟩ := Pos.next_finished hbusy hend
    have hpidx : s.pos.pidx = some 581 := Pos.pidx_eq_some.mpr ⟨hbusy, hlast⟩
    have hlow : levelOf k = .low := by rw [levelOf_kind hk, hlast]; rfl
    refine .inr (.inl ⟨hpidx, hsub, ?pos, ?line, ?deadline, hi.err_none (Phase.ne_of_isPulse hbusy rfl)⟩)
    case pos => simp [hfin, Pos.finished]
    case line => exact hlow ▸ hi.wait_line k hsub hk
    case deadline => 
    have ht := hs.t_wait hbusy hsub
    rwa [hlast] at ht

end Sys2Proof.Machine
end

section
namespace Sys2Proof.Machine

/-! ### What a step may change (spec/41_pulse_transmitter.md R127, R138; spec/10_state.md R28, R30, R33) -/

theorem State.kind_ne_some_of_rest {s : State} (hrest : s.busy = false) (k : PulseKind) :
    s.pos.kind s.payload ≠ some k := by
  rw [State.kind_none_of_idle hrest]; exact nofun

/-- PAYLOAD after a step: as it was, a reset's, or STAGE's copy by an accepted TRANSMIT. -/
theorem step_payload {s u : State} (h : step s = .next u) :
    u.payload = s.payload ∨ s.nextTurn = .reset ∨
    (s.nextTurn = .command ∧ (∃ rest, decodeCommand s.ports.cmd = .ok (.transmit, rest)) ∧ s.busy = false ∧
      s.stageValid = true ∧ u.payload = s.stage) := by
  cases step_outcome h with
  | reset hturn => exact .inr (.inl hturn)
  | lineNotReady rest hturn hcmd hrest hvalid | nowFails rest hturn hcmd hrest hvalid
  | transmissionStarts _ rest hturn hcmd hrest hvalid =>
    exact .inr (.inr ⟨hturn, ⟨rest, hcmd⟩, hrest, hvalid, by simp⟩)
  | pass | pulseStarts | setLevelFails | pulseEnds | sleepFails | build | hostFault | lineReady => exact .inl (by simp)

/-- Settles O42: of the writers of PAYLOAD only a reset can come while a transmission runs. -/
theorem payloadImmutableWhileBusy : Obligations.PayloadImmutableWhileBusy := by
  refine fun s u => ⟨fun h hbusy hreset a => ?immutable, fun h ⟨a, ha⟩ => ?writers, fun p m t f v h => ?build⟩
  case immutable =>
    obtain hsame | hturn | ⟨-, -, hrest, -⟩ := step_payload h
    · rw [hsame]
    · contradiction
    · rw [hrest] at hbusy; contradiction
  case writers =>
    obtain hsame | hturn | ⟨hturn, hcmd, hrest, hvalid, hcopy⟩ := step_payload h
    · rw [hsame] at ha; contradiction
    · exact .inl hturn
    · exact .inr ⟨hturn, hcmd, hrest, hvalid, fun a => by rw [hcopy]⟩
  case build =>
    cases (exec_build p m t f v s).symm.trans h
    exact ⟨fun a => by simp, by simp, by simp, by simp⟩

/-- Settles O43: with no turn of the engine and no reset, and TRANSMIT not accepted while busy, what is left changes
STAGE, HOSTFAULT or an input. -/
theorem commandsDoNotDisturbTransmission : Obligations.CommandsDoNotDisturbTransmission := by
  intro s u hbusy hengine hreset h
  cases step_outcome h with
  | pulseStarts | setLevelFails | pulseEnds | sleepFails | reset => contradiction
  | lineNotReady _ _ _ hrest | nowFails _ _ _ hrest | transmissionStarts _ _ _ _ hrest =>
    rw [hrest] at hbusy; contradiction
  | pass | lineReady => simp
  | build | hostFault => simp [State.events]

/-- Settles O46: with no kind at the position the engine's turn passes, and of the commands only an accepted TRANSMIT
writes the position. -/
theorem onlyTransmitLeavesRest : Obligations.OnlyTransmitLeavesRest := by
  intro s u hrest h hmoved
  cases step_outcome h with
  | reset hturn => exact .inl hturn
  | lineNotReady rest hturn hcmd _ hvalid | nowFails rest hturn hcmd _ hvalid
  | transmissionStarts _ rest hturn hcmd _ hvalid => exact .inr ⟨hturn, ⟨rest, hcmd⟩, hvalid⟩
  | pulseStarts _ _ hk | setLevelFails _ _ hk | pulseEnds _ _ _ _ hk | sleepFails _ _ _ _ hk =>
    exact absurd hk (State.kind_ne_some_of_rest hrest _)
  | pass | build | hostFault | lineReady => simp at hmoved

/-- Settles O47: BUILD's record update and the reset's are the only ones that name STAGE or STAGE_VALID. -/
theorem stageWriters : Obligations.StageWriters := by
  intro s u h hchanged
  cases step_outcome h with
  | reset hturn => exact .inl hturn
  | build p m t f v rest hturn hcmd => exact .inr ⟨hturn, ⟨p, m, t, f, v, rest, hcmd⟩, by simp⟩
  | pass | pulseStarts | setLevelFails | pulseEnds | sleepFails | hostFault | lineNotReady | nowFails
  | transmissionStarts | lineReady => simp at hchanged

/-- Settles O48: the start of a transmission, the start of a pulse and a reset write `T`. -/
theorem deadlineWriters : Obligations.DeadlineWriters := by
  intro s u h hchanged
  cases step_outcome h with
  | reset hturn => exact .inl hturn
  | transmissionStarts t0 rest hturn hcmd hrest hvalid hready hnow =>
    exact .inr (.inl ⟨hturn, ⟨rest, hcmd⟩, hrest, hvalid, hready, by simpa using hnow⟩)
  | pulseStarts k hturn hk hsub ha => exact .inr (.inr ⟨hturn, hsub, ha, k, hk, by simp⟩)
  | pass | setLevelFails | pulseEnds | sleepFails | build | hostFault | lineNotReady | nowFails | lineReady =>
    simp at hchanged

/-- Settles O49: both answers of a pulse's `SetLevel` and a reset write LINE. -/
theorem lineWriters : Obligations.LineWriters := by
  intro s u h hchanged
  cases step_outcome h with
  | reset hturn => exact .inl ⟨hturn, by simp⟩
  | pulseStarts k hturn hk hsub ha => exact .inr ⟨hturn, hsub, k, hk, .inl ⟨ha, by simp⟩⟩
  | setLevelFails k hturn hk hsub ha => exact .inr ⟨hturn, hsub, k, hk, .inr ⟨ha, by simp⟩⟩
  | pass | pulseEnds | sleepFails | build | hostFault | lineNotReady | nowFails | transmissionStarts | lineReady =>
    simp at hchanged

/-- The actual level is told by LINE and the number of the draw. -/
theorem State.lineLevel_of_eq {s u : State} (hline : u.line = s.line) (hdraw : u.lineDraw = s.lineDraw) :
    u.lineLevel = s.lineLevel := by
  simp only [State.lineLevel, hline, hdraw]

/-- Settles O50: a draw is taken by a reset and a failed `SetLevel` only, and a good one leaves LINE known. -/
theorem unknownLineKeepsItsLevel : Obligations.UnknownLineKeepsItsLevel := by
  intro s u h hbefore hafter
  cases step_outcome h with
  | reset hturn => exact .inl hturn
  | setLevelFails k hturn hk hsub ha => exact .inr (.inl ⟨hturn, hsub, ha, k, hk⟩)
  | pulseStarts => simp at hafter
  | pass | pulseEnds | sleepFails | build | hostFault | lineNotReady | nowFails | transmissionStarts | lineReady =>
    exact .inr (.inr (State.lineLevel_of_eq (by simp) (by simp)))

/-- Settles O17: a host fault adds its bit to the others, and no other step but a reset writes HOSTFAULT. -/
theorem hostFaultBitsSticky : Obligations.HostFaultBitsSticky := by
  refine fun s u h => ⟨fun hreset b hb => ?sticky, fun hreset => ?cleared⟩
  case sticky =>
    cases step_outcome h with
    | reset => contradiction
    | hostFault => simp [hb]
    | pass | pulseStarts | setLevelFails | pulseEnds | sleepFails | build | lineNotReady | nowFails
    | transmissionStarts | lineReady => simpa using hb
  case cleared =>
    cases (step_reset hreset).symm.trans h
    simp

/-! ### What a step adds to the trace (spec/42_external_interface.md R172, R179) -/

/-- Settles O51: each outcome observes its events last, so that both carry the STATUS of the state it answers. -/
theorem stepEvents : Obligations.StepEvents := by
  intro s u h
  cases step_outcome h with
  | pass | reset | lineReady => exact ⟨[], by simp, .inl rfl⟩
  | build p m t f v => exact ⟨[.cmd (.build p m t f v)], by simp, .inr (.inl ⟨_, rfl⟩)⟩
  | hostFault _ i => exact ⟨[.cmd i], by simp, .inr (.inl ⟨_, rfl⟩)⟩
  | lineNotReady => exact ⟨[.cmd .transmit], by simp, .inr (.inl ⟨_, rfl⟩)⟩
  | nowFails => exact ⟨[.cmd .transmit, .now none], by simp, .inr (.inr (.inl ⟨_, rfl⟩))⟩
  | transmissionStarts t0 => exact ⟨[.cmd .transmit, .now (some t0)], by simp, .inr (.inr (.inl ⟨_, rfl⟩))⟩
  | pulseStarts k _ hk hsub =>
    exact ⟨[.setLevel (levelOf k) .ok, .sleepUntil (addUs s.t (durationOf k))], by simp,
      .inr (.inr (.inr (.inl ⟨k, hk, hsub, .inl (by simp)⟩)))⟩
  | setLevelFails k _ hk hsub =>
    exact ⟨[.setLevel (levelOf k) .err], by simp, .inr (.inr (.inr (.inl ⟨k, hk, hsub, .inr rfl⟩)))⟩
  | pulseEnds _ late _ _ hk hsub =>
    exact ⟨[.wake (addNs s.t late) .ok], by simp,
      .inr (.inr (.inr (.inr ⟨Pos.isPulse_of_kind hk, hsub, _, _, by simp, rfl⟩)))⟩
  | sleepFails _ late _ _ hk hsub =>
    exact ⟨[.wake (addNs s.t late) .err], by simp,
      .inr (.inr (.inr (.inr ⟨Pos.isPulse_of_kind hk, hsub, _, _, by simp, rfl⟩)))⟩

/-- Settles O52: of the events the outcomes add, only those of a TRANSMIT accepted with the line ready have a `Now`. -/
theorem nowOnlyAtTransmit : Obligations.NowOnlyAtTransmit := by
  intro s u h
  cases step_outcome h with
  | nowFails _ hturn _ hrest hvalid hready hnow | transmissionStarts _ _ hturn _ hrest hvalid hready hnow =>
    exact .inr ⟨hturn, hrest, hvalid, hready, by simp [hnow]⟩
  | build => exact .inl fun a => by simp [State.events]
  | pass | pulseStarts | setLevelFails | pulseEnds | sleepFails | hostFault | lineNotReady | reset | lineReady =>
    exact .inl fun a => by simp

end Sys2Proof.Machine
end

section
namespace Sys2Proof.Machine

/-! ### A half pulse, outcome by outcome (spec/41_pulse_transmitter.md R125, R126) -/

section
variable {s : State} {k : PulseKind} (hk : s.pos.kind s.payload = some k)
include hk

theorem State.pulseStep_starts (hsub : s.pos.sub = .emit) (ha : s.lineAnswer = .ok) : s.pulseStep k =
    ((s.lineAnswered.emitOk k).observe (.setLevel (levelOf k) .ok)).observe (.sleepUntil (addUs s.t (durationOf k))) := by
  simp only [State.pulseStep, if_pos hk, hsub, State.emitStep, ha]

theorem State.pulseStep_setLevelFails (hsub : s.pos.sub = .emit) (ha : s.lineAnswer = .err) : s.pulseStep k =
    (s.lineAnswered.loseLine.raiseError .lineActuationFailure s.pos.pidx).observe (.setLevel (levelOf k) .err) := by
  simp only [State.pulseStep, if_pos hk, hsub, State.emitStep, ha]

theorem State.pulseStep_ends {late : Nat} {rest : List SleepAnswer} (hsub : s.pos.sub = .wait)
    (ha : s.ports.sleepAnswers = .ok late :: rest) :
    s.pulseStep k = s.sleepAnswered.advance.observe (.wake (addNs s.t late) .ok) := by
  simp only [State.pulseStep, if_pos hk, hsub, State.wakeStep, ha]

theorem State.pulseStep_sleepFails {late : Nat} {rest : List SleepAnswer} (hsub : s.pos.sub = .wait)
    (ha : s.ports.sleepAnswers = .err late :: rest) : s.pulseStep k =
      (s.sleepAnswered.raiseError .clockUnavailable s.pos.pidx).observe (.wake (addNs s.t late) .err) := by
  simp only [State.pulseStep, if_pos hk, hsub, State.wakeStep, ha]

end

/-! ### What the engine reads (spec/20_memory.md R57; spec/41_pulse_transmitter.md R138) -/

/-- The states agree on what the engine reads and writes: the registers of the transmission, and the ports it asks. -/
structure SameForEngine (s s' : State) : Prop where
  pos : s'.pos = s.pos
  payload : ∀ a, s'.payload.read a = s.payload.read a
  t : s'.t = s.t
  line : s'.line = s.line
  err : s'.err = s.err
  failPulse : s'.failPulse = s.failPulse
  draws : s'.draws = s.draws
  lineAnswers : s'.ports.lineAnswers = s.ports.lineAnswers
  sleepAnswers : s'.ports.sleepAnswers = s.ports.sleepAnswers

/-- The kind at a position reads a payload byte by byte. -/
theorem Pos.kind_eq_of_read {p : Pos} {m m' : Memory} (h : ∀ a, m'.read a = m.read a) : p.kind m' = p.kind m := by
  simp only [Pos.kind, Memory.bit, h]

theorem State.lineAnswered_draws (s : State) :
    s.lineAnswered.draws = if s.ports.lineAnswers = [] then s.draws + 1 else s.draws := by
  unfold State.lineAnswered
  split <;> simp_all

section
variable {s s' : State} (h : SameForEngine s s')
include h

theorem SameForEngine.kind : s'.pos.kind s'.payload = s.pos.kind s.payload := by
  rw [h.pos, Pos.kind_eq_of_read h.payload]

theorem SameForEngine.lineAnswer : s'.lineAnswer = s.lineAnswer := by
  simp only [State.lineAnswer, h.lineAnswers, h.draws]

theorem SameForEngine.turnTaken : SameForEngine s.turnTaken s'.turnTaken := { h with }
theorem SameForEngine.observe (e : PortEvent) : SameForEngine (s.observe e) (s'.observe e) := { h with }

theorem SameForEngine.lineAnswered : SameForEngine s.lineAnswered s'.lineAnswered where
  pos := by simpa using h.pos
  payload := by simpa using h.payload
  t := by simpa using h.t
  line := by simpa using h.line
  err := by simpa using h.err
  failPulse := by simpa using h.failPulse
  draws := by simp only [State.lineAnswered_draws, h.draws, h.lineAnswers]
  lineAnswers := by simp only [State.lineAnswered_ports_lineAnswers, h.lineAnswers]
  sleepAnswers := by simpa using h.sleepAnswers

theorem SameForEngine.emitOk (k : PulseKind) : SameForEngine (s.emitOk k) (s'.emitOk k) :=
  { h with
    pos := by simp only [State.emitOk_pos, h.pos]
    t := by simp only [State.emitOk_t, h.t]
    line := rfl }

theorem SameForEngine.loseLine : SameForEngine s.loseLine s'.loseLine := { h with line := rfl }

theorem SameForEngine.raiseError (e : TxError) (i : Option (Fin 582)) :
    SameForEngine (s.raiseError e i) (s'.raiseError e i) :=
  { h with
    pos := by simp only [State.raiseError_pos, h.pos]
    err := rfl
    failPulse := rfl }

theorem SameForEngine.sleepAnswered : SameForEngine s.sleepAnswered s'.sleepAnswered :=
  { h with sleepAnswers := congrArg List.tail h.sleepAnswers }

theorem SameForEngine.advance : SameForEngine s.advance s'.advance :=
  { h with pos := by simp only [State.advance_pos, h.pos] }

/-- The half pulse of two states that agree: the same events, and the states agree again. -/
theorem SameForEngine.pulseStep {k : PulseKind} (hk : s.pos.kind s.payload = some k) :
    SameForEngine (s.pulseStep k) (s'.pulseStep k) ∧
    ∃ new, (s.pulseStep k).events = s.events ++ new ∧ (s'.pulseStep k).events = s'.events ++ new := by
  have hk' := h.kind.trans hk
  obtain ⟨hsub, ha, hu⟩ | ⟨hsub, ha, hu⟩ | ⟨late, rest, hsub, ha, hu⟩ | ⟨late, rest, hsub, ha, hu⟩ | ⟨hsub, ha, hu⟩ :=
    State.pulseStep_cases hk
  all_goals rw [← h.pos] at hsub
  · rw [hu, State.pulseStep_starts hk' hsub (h.lineAnswer.trans ha), h.t]
    exact ⟨((h.lineAnswered.emitOk k).observe _).observe _,
      [.setLevel (levelOf k) .ok, .sleepUntil (addUs s.t (durationOf k))], by simp, by simp⟩
  · rw [hu, State.pulseStep_setLevelFails hk' hsub (h.lineAnswer.trans ha), h.pos]
    exact ⟨(h.lineAnswered.loseLine.raiseError _ _).observe _, [.setLevel (levelOf k) .err], by simp, by simp⟩
  · rw [hu, State.pulseStep_ends hk' hsub (h.sleepAnswers.trans ha), h.t]
    exact ⟨h.sleepAnswered.advance.observe _, [.wake (addNs s.t late) .ok], by simp, by simp⟩
  · rw [hu, State.pulseStep_sleepFails hk' hsub (h.sleepAnswers.trans ha), h.t, h.pos]
    exact ⟨(h.sleepAnswered.raiseError _ _).observe _, [.wake (addNs s.t late) .err], by simp, by simp⟩
  · rw [hu, State.pulseStep_waiting hsub (h.sleepAnswers.trans ha)]
    exact ⟨h, [], by simp, by simp⟩

end

/-- Settles O44: the engine's turn reads the position, the bit of PAYLOAD, `T` and the answers, and each update it makes
keeps two states agreed. -/
theorem engineIgnoresHostRegisters : Obligations.EngineIgnoresHostRegisters := by
  intro s s' u hturn hturn' hpos hpayload ht hline herr hfail hdraws hanswers hsleeps hstep
  have h : SameForEngine s.turnTaken s'.turnTaken :=
    SameForEngine.turnTaken ⟨hpos, hpayload, ht, hline, herr, hfail, hdraws, hanswers, hsleeps⟩
  rw [step_engine hturn, runEngine_eq] at hstep
  rw [step_engine hturn', runEngine_eq, h.kind]
  cases hk : s.turnTaken.pos.kind s.turnTaken.payload with
  | none =>
    rw [hk] at hstep
    cases hstep
    exact ⟨_, rfl, h.pos, h.payload, h.t, h.line, h.err, h.failPulse, h.draws, h.lineAnswers, h.sleepAnswers, [], by simp⟩
  | some k =>
    rw [hk] at hstep
    cases hstep
    obtain ⟨h, hevents⟩ := h.pulseStep hk
    exact ⟨_, rfl, h.pos, h.payload, h.t, h.line, h.err, h.failPulse, h.draws, h.lineAnswers, h.sleepAnswers, hevents⟩

end Sys2Proof.Machine
end

section
namespace Sys2Proof.Machine

/-! ### Deadlines and level changes (spec/41_pulse_transmitter.md R132, R133) -/

section
variable (t0 : AbsTime) (m : Memory)

theorem durationOf_pos (k : PulseKind) : 0 < durationOf k := by cases k <;> decide

theorem pulseDuration_pos {p : Nat} (hp : p < 582) : 0 < pulseDuration m p := by
  obtain ⟨k, hk⟩ : ∃ k, (transmission m)[p]? = some k := ⟨_, List.getElem?_eq_getElem (by simpa using hp)⟩
  simpa only [pulseDuration, schedule_get hk] using durationOf_pos k

theorem deadline_zero : deadline t0 m 0 = addUs t0 (pulseDuration m 0) := by
  simp only [deadline, offsetAfter, Nat.zero_add]

theorem deadline_succ (p : Nat) : deadline t0 m (p + 1) = addUs (deadline t0 m p) (pulseDuration m (p + 1)) :=
  deadlineAfter_succ t0 m (p + 1)

/-- The level changes of the pulses from `p` on, the clock last answered at `w`: the first pulse's at `w`, each later one
when the sleep before it was answered. -/
theorem levelChanges_pulseEvents (w : AbsTime) (p : Nat) {lates : List Nat} {i : Nat} (hi : i < lates.length) :
    (levelChanges (some w) (pulseEvents t0 m p lates))[i]? =
      some (if i = 0 then w else addNs (deadline t0 m (p + i - 1)) (lates.getD (i - 1) 0), pulseLevel m (p + i)) := by
  induction lates generalizing w p i with
  | nil => contradiction
  | cons late lates ih =>
    cases i with
    | zero => rfl
    | succ i =>
      refine (ih (addNs (deadline t0 m p) late) (p + 1) (Nat.lt_of_succ_lt_succ hi)).trans ?_
      cases i with
      | zero => rfl
      | succ i => simp [Nat.add_assoc, Nat.add_comm 1]

end

/-- Settles O33: a deadline is the one before it with the pulse's duration added, and every kind takes time. -/
theorem deadlinesStrictlyIncrease : Obligations.DeadlinesStrictlyIncrease := by
  refine fun t0 m p => ⟨fun hp => pulseDuration_pos m hp, ?first, ?later⟩
  case first => rw [deadline_zero, addUs_ns, Nat.mul_comm]
  case later => rw [deadline_succ, addUs_ns, Nat.mul_comm]

/-- Settles O34: the trace of pulses from 0 on, the clock last answered at `t0`. -/
theorem levelChangeTimes : Obligations.LevelChangeTimes := by
  intro t0 m lates p hp
  have h := levelChanges_pulseEvents t0 m t0 0 hp
  rw [Nat.zero_add] at h
  exact h

end Sys2Proof.Machine
end

section
namespace Sys2Proof.Machine

/-! ### Engine steps one after another (spec/41_pulse_transmitter.md R125, R126; spec/60_exceptions.md R199) -/

section
variable {s : State}

theorem State.turnTaken_of_no_turns (h : s.ports.turns = []) : s.turnTaken = s := by
  have hports : { s.ports with turns := s.ports.turns.tail } = s.ports := by rw [h, List.tail_nil, ← h]
  rw [State.turnTaken, hports]

theorem step_of_no_turns (h : s.ports.turns = []) : step s = runEngine s := by
  have hturn : s.nextTurn = .engine := by simp only [State.nextTurn, h]
  rw [step_engine hturn, State.turnTaken_of_no_turns h]

theorem step_pulse (h : s.ports.turns = []) {k : PulseKind} (hk : s.pos.kind s.payload = some k) :
    step s = .next (s.pulseStep k) := (step_of_no_turns h).trans (runEngine_pulse hk)

/-- At rest, with no other event listed, nothing happens. -/
theorem run_rest (h : s.ports.turns = []) (hrest : s.busy = false) (n : Nat) : Sys2Proof.core.run n s = .next s := by
  induction n with
  | zero => rfl
  | succ n ih => rw [run_step ((step_of_no_turns h).trans (runEngine_rest hrest)), ih]

end

/-- The index is that of the pulse, whichever half of it is next. -/
@[simp] theorem Pos.pulseIndex_withSub (p : Pos) (sub : Sub) : Pos.pulseIndex { p with sub := sub } = p.pulseIndex := rfl

/-! ### A transmission under way (spec/41_pulse_transmitter.md R131 to R135) -/

/-- What a run is accounted for besides the transmission's own registers: the host faults, the answers still listed, and
the trace. -/
structure Account where
  hostFault : BitVec 3
  lineAnswers : List PortAnswer
  sleepAnswers : List SleepAnswer
  events : List PortEvent

def State.account (s : State) : Account :=
  { hostFault := s.hostFault, lineAnswers := s.ports.lineAnswers, sleepAnswers := s.ports.sleepAnswers
    events := s.events }

theorem State.account_eq {s : State} {f : BitVec 3} {la : List PortAnswer} {sa : List SleepAnswer} {es : List PortEvent} :
    s.account = ⟨f, la, sa, es⟩ ↔
      s.hostFault = f ∧ s.ports.lineAnswers = la ∧ s.ports.sleepAnswers = sa ∧ s.events = es := by
  simp only [State.account, Account.mk.injEq]

/-- A transmission of `m` begun at `t0` is at the half `sub` of pulse `n`, with no event listed but the engine's. -/
structure Underway (t0 : AbsTime) (m : Memory) (n : Nat) (sub : Sub) (s : State) : Prop where
  turns : s.ports.turns = []
  pulse : s.pos.phase.isPulse = true
  index : s.pos.pulseIndex = n
  sub : s.pos.sub = sub
  payload : s.payload = m
  schedule : s.OnSchedule t0
  err : s.err = .none
  failPulse : s.failPulse = none

section
variable {t0 : AbsTime} {m : Memory} {n : Nat} {sub : Sub} {s : State}

theorem Underway.pidx (h : Underway t0 m n sub s) {p : Fin 582} (hp : p.val = n) : s.pos.pidx = some p :=
  Pos.pidx_eq_some.mpr ⟨h.pulse, h.index.trans hp.symm⟩

/-- The kind at the position has the level and the duration of the schedule. -/
theorem Underway.kind (h : Underway t0 m n sub s) : ∃ k, s.pos.kind s.payload = some k ∧ levelOf k = pulseLevel m n ∧
    durationOf k = pulseDuration m n := by
  have hsome : (s.pos.kind s.payload).isSome = true := (Pos.kind_isSome _ _).trans h.pulse
  obtain ⟨k, hk⟩ := Option.isSome_iff_exists.mp hsome
  refine ⟨k, hk, ?_, ?_⟩
  · rw [← pulseLevel_pulseIndex hk, h.payload, h.index]
  · rw [← pulseDuration_pulseIndex hk, h.payload, h.index]

theorem Underway.t_emit (h : Underway t0 m n .emit s) : s.t = deadlineAfter t0 m n := by
  rw [h.schedule.t_emit h.pulse h.sub, h.payload, h.index]

theorem Underway.t_wait (h : Underway t0 m n .wait s) : s.t = deadline t0 m n := by
  rw [h.schedule.t_wait h.pulse h.sub, h.payload, h.index]
  rfl

/-- EMIT with a good answer. -/
theorem Underway.starts (h : Underway t0 m n .emit s) {la : List PortAnswer} (ha : s.ports.lineAnswers = .ok :: la) :
    ∃ u, step s = .next u ∧ Underway t0 m n .wait u ∧ u.line = .driven (pulseLevel m n) ∧
      u.account = ⟨s.hostFault, la, s.ports.sleepAnswers,
        s.events ++ [PortEvent.setLevel (pulseLevel m n) .ok, .sleepUntil (deadline t0 m n)]⟩ := by
  obtain ⟨k, hk, hlevel, hdur⟩ := h.kind
  have hanswer : s.lineAnswer = .ok := by simp only [State.lineAnswer, ha]
  have hdeadline : addUs s.t (durationOf k) = deadline t0 m n := by
    rw [h.t_emit, hdur, ← deadlineAfter_succ]; rfl
  refine ⟨_, step_pulse h.turns hk, ?_⟩
  rw [State.pulseStep_starts hk h.sub hanswer, hdeadline, hlevel]
  refine ⟨?underway, by simp [hlevel], by simp [State.account, ha]⟩
  exact
    { turns := by simpa using h.turns
      pulse := by simpa using h.pulse
      index := by simpa using h.index
      sub := rfl
      payload := by simpa using h.payload
      schedule := (h.schedule.emitOk hk h.sub).of_eq (by simp) (by simp) (by simp)
      err := by simpa using h.err
      failPulse := by simpa using h.failPulse }

/-- A good wake, however late: the next pulse, with its `SetLevel` still to come. -/
theorem Underway.ends (h : Underway t0 m n .wait s) (hn : n < 581) {late : Nat} {sa : List SleepAnswer}
    (ha : s.ports.sleepAnswers = .ok late :: sa) :
    ∃ u, step s = .next u ∧ Underway t0 m (n + 1) .emit u ∧
      u.account = ⟨s.hostFault, s.ports.lineAnswers, sa,
        s.events ++ [PortEvent.wake (addNs (deadline t0 m n) late) .ok]⟩ := by
  obtain ⟨k, hk, -⟩ := h.kind
  obtain ⟨hnext, hindex⟩ | ⟨hlast, -⟩ := Pos.next_cases h.pulse
  · refine ⟨_, step_pulse h.turns hk, ?_⟩
    rw [State.pulseStep_ends hk h.sub ha, h.t_wait]
    refine ⟨?underway, by simp [State.account, ha]⟩
    exact
      { turns := h.turns
        pulse := hnext
        index := hindex.trans (congrArg (· + 1) h.index)
        sub := rfl
        payload := h.payload
        schedule := (h.schedule.advance h.pulse h.sub).of_eq (by simp) (by simp) (by simp)
        err := h.err
        failPulse := h.failPulse }
  · have := h.index; omega

/-- The good wake of the last pulse. -/
theorem Underway.ends_last (h : Underway t0 m 581 .wait s) {late : Nat} {sa : List SleepAnswer}
    (ha : s.ports.sleepAnswers = .ok late :: sa) :
    ∃ u, step s = .next u ∧ u.pos = { phase := .done, sub := .emit, frame := 1, byteIdx := 17, bitIdx := 7 } ∧
      u.line = s.line ∧ u.t = s.t ∧ u.err = .none ∧ u.failPulse = none ∧
      u.account = ⟨s.hostFault, s.ports.lineAnswers, sa,
        s.events ++ [PortEvent.wake (addNs (deadline t0 m 581) late) .ok]⟩ := by
  obtain ⟨k, hk, -⟩ := h.kind
  obtain ⟨-, hindex⟩ | ⟨-, hfin⟩ := Pos.next_cases h.pulse
  · have := h.index
    have := s.pos.next.pulseIndex_lt
    omega
  · refine ⟨_, step_pulse h.turns hk, ?_⟩
    rw [State.pulseStep_ends hk h.sub ha, h.t_wait]
    exact ⟨by simp [hfin, Pos.finished], rfl, h.t_wait ▸ rfl, h.err, h.failPulse, by simp [State.account, ha]⟩

/-- EMIT with `err`: the transmission stops in FAILED, whatever the number of steps after it. -/
theorem Underway.setLevelFails (h : Underway t0 m n .emit s) {p : Fin 582} (hp : p.val = n) {la : List PortAnswer}
    (ha : s.ports.lineAnswers = .err :: la) (more : Nat) :
    ∃ u, Sys2Proof.core.run (1 + more) s = .next u ∧ u.pos.phase = .failed ∧ u.pos.sub = .emit ∧
      u.err = .lineActuationFailure ∧ u.failPulse = some p ∧ u.line = .unknown ∧ u.t = deadlineAfter t0 m n ∧
      u.account = ⟨s.hostFault, la, s.ports.sleepAnswers, s.events ++ [PortEvent.setLevel (pulseLevel m n) .err]⟩ := by
  obtain ⟨k, hk, hlevel, -⟩ := h.kind
  have hanswer : s.lineAnswer = .err := by simp only [State.lineAnswer, ha]
  refine ⟨s.pulseStep k, ?_⟩
  rw [Nat.add_comm, run_step (step_pulse h.turns hk), State.pulseStep_setLevelFails hk h.sub hanswer, hlevel]
  refine ⟨run_rest (by simpa using h.turns) rfl more, ?_⟩
  simp [h.t_emit, h.pidx hp, State.account, ha]

/-- A wake with `err`: the transmission stops in FAILED, whatever the number of steps after it. -/
theorem Underway.sleepFails (h : Underway t0 m n .wait s) {p : Fin 582} (hp : p.val = n) {late : Nat}
    {sa : List SleepAnswer} (ha : s.ports.sleepAnswers = .err late :: sa) (more : Nat) :
    ∃ u, Sys2Proof.core.run (1 + more) s = .next u ∧ u.pos.phase = .failed ∧ u.pos.sub = .emit ∧
      u.err = .clockUnavailable ∧ u.failPulse = some p ∧ u.line = s.line ∧ u.t = deadline t0 m n ∧
      u.account = ⟨s.hostFault, s.ports.lineAnswers, sa,
        s.events ++ [PortEvent.wake (addNs (deadline t0 m n) late) .err]⟩ := by
  obtain ⟨k, hk, -⟩ := h.kind
  refine ⟨s.pulseStep k, ?_⟩
  rw [Nat.add_comm, run_step (step_pulse h.turns hk), State.pulseStep_sleepFails hk h.sub ha]
  refine ⟨run_rest (by simpa using h.turns) rfl more, ?_⟩
  simp [h.t_wait, h.pidx hp, State.account, ha]

/-- Pulses from `n` on, none of them the last, with good answers. -/
theorem Underway.run_pulses (h : Underway t0 m n .emit s) {lates : List Nat} (hn : n + lates.length < 582)
    {la : List PortAnswer} {sa : List SleepAnswer}
    (hla : s.ports.lineAnswers = List.replicate lates.length PortAnswer.ok ++ la)
    (hsa : s.ports.sleepAnswers = lates.map .ok ++ sa) :
    ∃ u, Sys2Proof.core.run (2 * lates.length) s = .next u ∧ Underway t0 m (n + lates.length) .emit u ∧
      u.account = ⟨s.hostFault, la, sa, s.events ++ pulseEvents t0 m n lates⟩ := by
  induction lates generalizing n s with
  | nil => exact ⟨s, rfl, h, by simp_all [State.account, pulseEvents]⟩
  | cons late lates ih =>
    rw [List.length_cons] at hn hla
    obtain ⟨u, hu, hwait, -, hacc⟩ := h.starts hla
    obtain ⟨hfault, hlines, hsleeps, hevents⟩ := State.account_eq.mp hacc
    obtain ⟨v, hv, hemit, hacc⟩ := hwait.ends (by omega) (hsleeps.trans hsa)
    obtain ⟨hfault', hlines', hsleeps', hevents'⟩ := State.account_eq.mp hacc
    obtain ⟨w, hw, hend, hacc⟩ := ih hemit (by omega) (hlines'.trans hlines) hsleeps'
    refine ⟨w, ?_, ?_, ?_⟩
    · rw [List.length_cons, Nat.mul_add, Nat.mul_one, run_step hu, run_step hv, hw]
    · rw [List.length_cons, ← Nat.add_assoc, Nat.add_right_comm]; exact hend
    · rw [hacc, hfault', hfault, hevents', hevents]
      simp [pulseEvents]

end

/-- An accepted TRANSMIT with the engine's turns alone to come. -/
theorem underway_of_transmit {s u : State} {t0 : AbsTime} (hrest : s.busy = false) (hvalid : s.stageValid = true)
    (hready : s.ports.lineReady = true) (hnow : s.nowAnswer = some t0) (hturns : s.ports.turns = [])
    (h : exec .transmit s = .next u) : Underway t0 s.stage 0 .emit u ∧
      u.account = ⟨s.hostFault, s.ports.lineAnswers, s.ports.sleepAnswers,
        s.events ++ [PortEvent.cmd .transmit, .now (some t0)]⟩ := by
  have hschedule := transmitBeginsOnSchedule s u t0 hrest hvalid hready hnow h
  cases (exec_transmit_starts hrest hvalid hready hnow).symm.trans h
  refine ⟨?underway, by simp [State.account]⟩
  exact
    { turns := by simpa using hturns
      pulse := rfl
      index := by simp [Pos.pulseIndex, Pos.frameBase, Pos.restart]
      sub := by simp [Pos.restart]
      payload := by simp
      schedule := hschedule
      err := by simp
      failPulse := by simp }

end Sys2Proof.Machine
end

section
namespace Sys2Proof.Machine

/-! ### Whole transmissions (spec/41_pulse_transmitter.md R131 to R135; spec/60_exceptions.md R192 to R195, R199) -/

theorem pulseEvents_append (t0 : AbsTime) (m : Memory) (p : Nat) (lates lates' : List Nat) :
    pulseEvents t0 m p (lates ++ lates') =
      pulseEvents t0 m p lates ++ pulseEvents t0 m (p + lates.length) lates' := by
  induction lates generalizing p with
  | nil => rfl
  | cons late lates ih =>
    simp only [List.cons_append, pulseEvents, ih, List.append_assoc, List.length_cons, Nat.add_assoc, Nat.add_comm 1]

/-- One more good answer of the line, after those of the pulses before. -/
theorem replicate_ok_succ (p : Nat) (la : List PortAnswer) :
    List.replicate (p + 1) PortAnswer.ok ++ la = List.replicate p PortAnswer.ok ++ .ok :: la := by
  rw [List.replicate_succ', List.append_assoc, List.singleton_append]

/-- From an accepted TRANSMIT to pulse `p`, the pulses before it answered well, however late their wakes. -/
theorem run_to_pulse {s u : State} {t0 : AbsTime} {p : Nat} {lates : List Nat} {la : List PortAnswer}
    {sa : List SleepAnswer} (hrest : s.busy = false) (hvalid : s.stageValid = true) (hready : s.ports.lineReady = true)
    (hnow : s.nowAnswer = some t0) (hturns : s.ports.turns = []) (hp : p < 582) (hlates : lates.length = p)
    (hla : s.ports.lineAnswers = List.replicate p PortAnswer.ok ++ la) (hsa : s.ports.sleepAnswers = lates.map .ok ++ sa)
    (h : exec .transmit s = .next u) :
    ∃ v, Sys2Proof.core.run (2 * p) u = .next v ∧ Underway t0 s.stage p .emit v ∧
      v.account = ⟨s.hostFault, la, sa,
        s.events ++ [PortEvent.cmd .transmit, .now (some t0)] ++ pulseEvents t0 s.stage 0 lates⟩ := by
  obtain ⟨hstart, hacc⟩ := underway_of_transmit hrest hvalid hready hnow hturns h
  obtain ⟨hfault, hlines, hsleeps, hevents⟩ := State.account_eq.mp hacc
  subst hlates
  obtain ⟨v, hv, hpulse, hacc'⟩ :=
    hstart.run_pulses (by rwa [Nat.zero_add]) (hlines.trans hla) (hsleeps.trans hsa)
  refine ⟨v, hv, by rwa [Nat.zero_add] at hpulse, ?_⟩
  rw [hacc', hfault, hevents]

/-- Settles O40: the run to pulse `p`, its failed `SetLevel`, and the steps at rest after it. -/
theorem failedSetLevelStopsTransmission : Obligations.FailedSetLevelStopsTransmission := by
  intro s u t0 p lates la sa hrest hvalid hready hnow hturns hlates hla hsa h more
  obtain ⟨v, hv, hpulse, hacc⟩ := run_to_pulse hrest hvalid hready hnow hturns p.isLt hlates hla hsa h
  obtain ⟨hfault, hlines, hsleeps, hevents⟩ := State.account_eq.mp hacc
  obtain ⟨w, hw, hphase, hsub, herr, hfail, hline, ht, hacc'⟩ := hpulse.setLevelFails rfl hlines more
  obtain ⟨-, hlines', hsleeps', hevents'⟩ := State.account_eq.mp hacc'
  refine ⟨w, ?_, hphase, hsub, herr, hfail, hline, ht, hsleeps'.trans hsleeps, hlines', by rw [hevents', hevents]⟩
  rw [Nat.add_assoc, run_add hv, hw]

/-- Settles O41: the run to pulse `p`, its good `SetLevel`, its failed sleep, and the steps at rest after it. -/
theorem failedSleepStopsTransmission : Obligations.FailedSleepStopsTransmission := by
  intro s u t0 late p lates la sa hrest hvalid hready hnow hturns hlates hla hsa h more
  rw [replicate_ok_succ] at hla
  obtain ⟨v, hv, hpulse, hacc⟩ := run_to_pulse hrest hvalid hready hnow hturns p.isLt hlates hla hsa h
  obtain ⟨-, hlines, hsleeps, hevents⟩ := State.account_eq.mp hacc
  obtain ⟨w, hw, hwait, hlevel, hacc'⟩ := hpulse.starts hlines
  obtain ⟨-, hlines', hsleeps', hevents'⟩ := State.account_eq.mp hacc'
  obtain ⟨x, hx, hphase, hsub, herr, hfail, hline, ht, hacc''⟩ := hwait.sleepFails rfl (hsleeps'.trans hsleeps) more
  obtain ⟨-, hlines'', hsleeps'', hevents''⟩ := State.account_eq.mp hacc''
  refine ⟨x, ?_, hphase, hsub, herr, hfail, hline.trans hlevel, ht, hsleeps'', hlines''.trans hlines', ?_⟩
  · rw [Nat.add_assoc, run_add hv, show 2 + more = 1 + more + 1 by omega, run_step hw, hx]
  · rw [hevents'', hevents', hevents]
    simp

/-- Settles O39: the run to pulse 581, and that pulse's two good halves. -/
theorem transmissionRunsToDone : Obligations.TransmissionRunsToDone := by
  intro s u t0 lates la sa hrest hvalid hready hnow hturns hlates hla hsa h
  have hne : lates ≠ [] := by rintro rfl; contradiction
  obtain ⟨before, last, rfl⟩ : ∃ before last, lates = before ++ [last] :=
    ⟨_, _, (List.dropLast_append_getLast hne).symm⟩
  have hbefore : before.length = 581 := by simpa using hlates
  rw [replicate_ok_succ 581] at hla
  rw [List.map_append, List.append_assoc] at hsa
  obtain ⟨v, hv, hpulse, hacc⟩ := run_to_pulse hrest hvalid hready hnow hturns (by decide) hbefore hla hsa h
  obtain ⟨hfault, hlines, hsleeps, hevents⟩ := State.account_eq.mp hacc
  obtain ⟨w, hw, hwait, hlevel, hacc'⟩ := hpulse.starts hlines
  obtain ⟨hfault', hlines', hsleeps', hevents'⟩ := State.account_eq.mp hacc'
  obtain ⟨x, hx, hpos, hline, ht, herr, hfail, hacc''⟩ := hwait.ends_last (hsleeps'.trans hsleeps)
  obtain ⟨hfault'', hlines'', hsleeps'', hevents''⟩ := State.account_eq.mp hacc''
  have hlow : pulseLevel s.stage 581 = .low := pulseLevel_of_lt s.stage (by decide)
  refine ⟨x, ?_, hpos, ?_, ht.trans hwait.t_wait, herr, hfail, ?_, hlines''.trans hlines', hsleeps'', ?_⟩
  · rw [show 1164 = 2 * 581 + 2 from rfl, run_add hv, run_step hw, run_step hx, run_zero]
  · rw [hline, hlevel, hlow]
  · rw [hfault'', hfault', hfault]
  · rw [hevents'', hevents', hevents, pulseEvents_append, hbefore]
    simp [pulseEvents]

end Sys2Proof.Machine
end

section
namespace Sys2Proof.Machine

/-! ### Samples and text (spec/30_encoding.md R73, R76, R81, R82) -/

/-- Settles O1: each of the words is read by its decoder's one branch for it. -/
theorem sampleWordsDecode : Obligations.SampleWordsDecode :=
  ⟨decode_command_of_decodeCommand (decodeCommand_build ..), decode_command_of_decodeCommand (decodeCommand_transmit []),
    decode_command_of_decodeCommand (decodeCommand_reserved (by decide) (by decide) []),
    decode_command_of_decodeCommand (decodeCommand_reserved (by decide) (by decide) []),
    rfl, rfl, rfl, rfl, rfl, rfl, rfl, decode_pulse_seven⟩

/-- Settles O53: a line stands for its commands, and each command is sent as its encoding's bytes. -/
theorem hostTextExpands : Obligations.HostTextExpands :=
  ⟨fun _ _ _ _ _ => ⟨rfl, rfl⟩, rfl, rfl, fun _ => rfl⟩

/-! ### Reading operands (spec/30_encoding.md R81) -/

theorem digitValue_digitChar_hex : ∀ d : Fin 16, digitValue 16 (Nat.digitChar d.val) = some d.val := by decide

theorem digitValue_digitChar_decimal : ∀ d : Fin 10, digitValue 10 (Nat.digitChar d.val) = some d.val := by decide

theorem digitsValue_append (base acc : Nat) (cs cs' : List Char) :
    digitsValue base acc (cs ++ cs') = (digitsValue base acc cs).bind fun v => digitsValue base v cs' := by
  induction cs generalizing acc with
  | nil => rfl
  | cons c cs ih =>
    simp only [List.cons_append, digitsValue]
    cases digitValue base c with
    | none => rfl
    | some v => exact ih _

/-- The decimal text of a number is read back, its last digit after the text of the rest. -/
theorem digitsValue_toDigits (n : Nat) : digitsValue 10 0 (Nat.toDigits 10 n) = some n := by
  induction n using Nat.strongRecOn with
  | ind n ih =>
    obtain hn | hn := Nat.lt_or_ge n 10
    · rw [Nat.toDigits_of_lt_base hn]
      simp only [digitsValue, digitValue_digitChar_decimal ⟨n, hn⟩, Nat.zero_mul, Nat.zero_add]
    · have hdigit := digitValue_digitChar_decimal ⟨n % 10, Nat.mod_lt n (by decide)⟩
      rw [Nat.toDigits_of_base_le (by decide) hn, digitsValue_append, ih _ (by omega)]
      simp only [Option.bind_some, digitsValue, hdigit, Option.some.injEq]
      omega

/-- Two hexadecimal digits are read as the number they write. -/
theorem digitsValue_hex {n : Nat} (hn : n < 256) :
    digitsValue 16 0 [Nat.digitChar (n / 16), Nat.digitChar (n % 16)] = some n := by
  have hhigh := digitValue_digitChar_hex ⟨n / 16, by omega⟩
  have hlow := digitValue_digitChar_hex ⟨n % 16, by omega⟩
  simp only [digitsValue, hhigh, hlow, Option.some.injEq]
  omega

/-- An operand with no `x` in it is decimal. -/
theorem parseByte_decimal {cs : List Char} (hne : cs ≠ []) (hx : 'x' ∉ cs) {n : Nat}
    (hn : digitsValue 10 0 cs = some n) : parseByte cs = if n < 256 then some (BitVec.ofNat 8 n) else none := by
  unfold parseByte
  split <;> simp_all

theorem parseByte_hex {n : Nat} (hn : n < 256) :
    parseByte ['0', 'x', Nat.digitChar (n / 16), Nat.digitChar (n % 16)] = some (BitVec.ofNat 8 n) := by
  simp only [parseByte, digitsValue_hex hn, if_pos hn]

theorem x_notMem_toDigits (n : Nat) : 'x' ∉ Nat.toDigits 10 n := fun h =>
  absurd (Nat.isDigit_of_mem_toDigits (by decide) (by decide) h) (by decide)

theorem parseByte_toDigits (v : Byte) : parseByte (Nat.toDigits 10 v.toNat) = some v := by
  rw [parseByte_decimal Nat.toDigits_ne_nil (x_notMem_toDigits _) (digitsValue_toDigits _), if_pos v.isLt,
    BitVec.ofNat_toNat, BitVec.setWidth_eq]

theorem parseByte_hexDigits (v : Byte) :
    parseByte ['0', 'x', Nat.digitChar (v.toNat / 16), Nat.digitChar (v.toNat % 16)] = some v := by
  rw [parseByte_hex v.isLt, BitVec.ofNat_toNat, BitVec.setWidth_eq]

/-! ### The line of a reserved opcode (spec/30_encoding.md R82) -/

/-- A hexadecimal digit is none of the characters that part a line. -/
theorem digitChar_plain : ∀ d : Fin 16, isBlank (Nat.digitChar d.val) = false ∧ Nat.digitChar d.val ≠ ';' ∧
    Nat.digitChar d.val ≠ ',' := by decide

/-- Text with no blank at either end is left as it is. -/
theorem trim_of_ends {c d : Char} (hc : isBlank c = false) (hd : isBlank d = false) (cs : List Char) :
    trim (c :: cs ++ [d]) = c :: cs ++ [d] := by
  simp [trim, hc, hd]

theorem trim_cons_blank {c : Char} (hc : isBlank c = true) (cs : List Char) : trim (c :: cs) = trim cs := by
  simp [trim, hc]

/-- The text of a `.byte` line with the digits `c` and `d`. -/
def byteLine (c d : Char) : List Char := ['.', 'b', 'y', 't', 'e', ' ', '0', 'x', c, d]

section
variable {c d : Char} {op : Byte} (hc : isBlank c = false ∧ c ≠ ';' ∧ c ≠ ',')
  (hd : isBlank d = false ∧ d ≠ ';' ∧ d ≠ ',') (hop : parseByte ['0', 'x', c, d] = some op)
include hc hd hop

/-- The operands of a `.byte` line: no comma, and a blank before the digits. -/
theorem parseOperands_hexByte : parseOperands [' ', '0', 'x', c, d] = some [op] := by
  obtain ⟨-, -, hc⟩ := hc
  obtain ⟨hblank, -, hd⟩ := hd
  have htrim : trim [' ', '0', 'x', c, d] = ['0', 'x', c, d] :=
    (trim_cons_blank rfl _).trans (trim_of_ends rfl hblank ['x', c])
  have hsplit : splitAt ',' [' ', '0', 'x', c, d] = [[' ', '0', 'x', c, d]] := by simp [splitAt, hc, hd]
  simp [parseOperands, htrim, hsplit, hop]

/-- A `.byte` line is read as its one operand: it has no comment and no blank at its ends, and its word ends at the first
blank. -/
theorem parseLine_byteLine : parseLine (byteLine c d) =
    if (Instr.reserved op).wellFormed then some (.command (.reserved op)) else none := by
  have hoperands := parseOperands_hexByte hc hd hop
  obtain ⟨-, hc, -⟩ := hc
  obtain ⟨hblank, hd, -⟩ := hd
  have hcomment : (byteLine c d).takeWhile (· != ';') = byteLine c d := by simp [byteLine, hc, hd]
  have htrim : trim (byteLine c d) = byteLine c d := trim_of_ends rfl hblank ['b', 'y', 't', 'e', ' ', '0', 'x', c]
  have hword : (byteLine c d).takeWhile (fun c => !isBlank c) = ['.', 'b', 'y', 't', 'e'] := rfl
  have hrest : (byteLine c d).dropWhile (fun c => !isBlank c) = [' ', '0', 'x', c, d] := rfl
  simp only [parseLine, hcomment, htrim, hword, hrest, hoperands]
  simp

end

/-- Settles O55: an operand is read digit by digit in either base, a `.byte` line by its operand, and the program line by
line. -/
theorem assemblerReadsText : Obligations.AssemblerReadsText := by
  refine ⟨fun v => ⟨parseByte_toDigits v, parseByte_hexDigits v⟩, fun op => ?byte, by decide⟩
  case byte =>
    refine (parseLine_byteLine (digitChar_plain ⟨op.toNat / 16, by omega⟩) (digitChar_plain ⟨op.toNat % 16, by omega⟩)
      (parseByte_hexDigits op)).trans ?_
    by_cases hassigned : op = 0x01#8 ∨ op = 0x02#8
    · rw [if_pos hassigned, if_neg (by rwa [Instr.wellFormed_reserved, ← not_or, not_not])]
    · rw [if_neg hassigned, if_pos (by rwa [Instr.wellFormed_reserved, ← not_or])]

end Sys2Proof.Machine
end
